-- ==== Sys2Proof/Word.lean ====
section
/-! DEFINITION. The machine's bit vectors: a register byte and an operation word (10_state.md R15, 30_encoding.md R49). -/

namespace Sys2Proof

/-- A register's contents, 8 bits (R15), and one byte of a serialised trace (R40). -/
abbrev Byte := BitVec 8

/-- One operation word, 32 bits, bit 31 the most significant (R49). -/
abbrev Word := BitVec 32

end Sys2Proof
end

