-- ==== Sys2Proof/Config.lean ====
section
/-! DEFINITION. The constants of R5 and the parameters of R6. Every parameter, OPEN or decided, is an argument of the
model (a field of `Params`), so a statement about every state is one about every value of them. -/

namespace Sys2Proof

/-- A CoilAssignment: {Forward, Reverse} (R5, R23). -/
inductive Dir where
  | forward
  | reverse
  deriving DecidableEq, Repr

/-- The other assignment: MCL's "reversed" one (R103). -/
def Dir.flip : Dir → Dir
  | .forward => .reverse
  | .reverse => .forward

/-- The raw level of the crank-sense line (R25). -/
inductive Level where
  | low
  | high
  deriving DecidableEq, Repr

/-- ANGLE_ARITH: the order of the angle-to-steps arithmetic (R6, R90, D14). -/
inductive AngleArith where
  | divFirst
  | mulFirst
  deriving DecidableEq, Repr

/-- HOST_MODE: who commands the motion controller (R6, D20). -/
inductive HostMode where
  | sequencer
  | direct
  deriving DecidableEq, Repr

/-- The parameters of R6. OVERSHOOT_MAX is any natural, as R153 allows (log entry 9). -/
structure Params where
  angleArith    : AngleArith
  hostMode      : HostMode
  overshootMax  : Nat
  openDir       : Dir
  moveAngle     : Fin 65536
  crankPinReset : Level
  deriving DecidableEq, Repr

/-- STEPS_PER_REV (R5). -/
def stepsPerRev : Nat := 200

/-- TARGET_MAX = 255 − OVERSHOOT_MAX (R6, D15); 0 where OVERSHOOT_MAX exceeds 255 (log entry 9). -/
def Params.targetMax (p : Params) : Nat := 255 - p.overshootMax

/-- The reference, decided and nominal values of R6. DESIGN CHOICE only in that `State.reset` uses them (log entry 2). -/
def Params.reference : Params where
  angleArith    := .divFirst
  hostMode      := .sequencer
  overshootMax  := 1
  openDir       := .forward
  moveAngle     := 90
  crankPinReset := .high

end Sys2Proof
end

