-- ==== Sys2Proof/Syntax.lean ====
section
/-! DEFINITION. The ten operations of 30_encoding.md R53, one constructor each, and the agent each belongs to. -/

namespace Sys2Proof

/-- The five agents that execute steps (R7). -/
inductive Agent where
  | env
  | timer
  | irq
  | fg
  | reset
  deriving DecidableEq, Repr

/-- The operations. A period and an angle are naturals (R10); their ranges (R52) are `Instr.wellFormed`'s. -/
inductive Instr where
  /-- TPG.CONFIG p (R64) -/
  | tpgConfig (p : Nat)
  /-- TPG.TICK (R66) -/
  | tpgTick
  /-- CTD.EVA (R77) -/
  | ctdEva
  /-- CTD.EVB (R78) -/
  | ctdEvb
  /-- CSM.EDGE l (R84) -/
  | csmEdge (l : Level)
  /-- MC.START d, angle (R91) -/
  | mcStart (d : Dir) (angle : Nat)
  /-- MC.POLL (R95) -/
  | mcPoll
  /-- MC.ACK (R96) -/
  | mcAck
  /-- MCL.STEP (R104) -/
  | mclStep
  /-- SYS.RESET (R113) -/
  | sysReset
  deriving DecidableEq, Repr

/-- The agent of R53's table that may present the operation (R60). -/
def Instr.agent : Instr → Agent
  | .tpgConfig _ => .fg
  | .tpgTick     => .timer
  | .ctdEva      => .irq
  | .ctdEvb      => .irq
  | .csmEdge _   => .env
  | .mcStart _ _ => .fg
  | .mcPoll      => .fg
  | .mcAck       => .fg
  | .mclStep     => .fg
  | .sysReset    => .reset

end Sys2Proof
end

