-- ==== Sys2Proof/WellFormed.lean ====
section
/-! DEFINITION. The operand ranges of 30_encoding.md R52: what an operation word can spell. -/

namespace Sys2Proof

/-- p in 0..255, angle in 0..65535 (R52); "an operand out of range is an assembler error" (R58). -/
def Instr.wellFormed : Instr → Bool
  | .tpgConfig p     => decide (p < 256)
  | .tpgTick         => true
  | .ctdEva          => true
  | .ctdEvb          => true
  | .csmEdge _       => true
  | .mcStart _ angle => decide (angle < 65536)
  | .mcPoll          => true
  | .mcAck           => true
  | .mclStep         => true
  | .sysReset        => true

end Sys2Proof
end

