-- ==== Sys2Proof/Decode.lean ====
section
/-! DEFINITION. Operation words: the fields (30_encoding.md R50), the opcode map (R53), decoding by R54, the little-endian
serialisation of a trace (20_memory.md R40, R41), and the encoder written from the formats of R51. -/

namespace Sys2Proof

/-- Why bytes spell no operation. Each of the two that a whole word can meet makes the machine raise ERR.ILL (R55). -/
inductive DecodeReject where
  /-- fewer than the four bytes of a word (R41) -/
  | truncated
  /-- bits 31:24 are none of the ten opcodes of R53 (R54) -/
  | unassignedOpcode (opcode : BitVec 8)
  /-- a listed opcode with a non-zero bit outside its format's operands (R54, R55) -/
  | reservedBitsSet (opcode : BitVec 8)
  deriving DecidableEq, Repr

/-- What decoding a word answers. -/
inductive Decoded where
  | ok (i : Instr)
  | reject (why : DecodeReject)
  deriving DecidableEq, Repr

/-! ## The fields of a word (R50) and the operands they give (R52) -/

/-- The opcode, bits 31:24. -/
def opcodeField (w : Word) : BitVec 8 := w.extractLsb' 24 8

/-- The one-bit operand d or l, bit 16. -/
def bitField (w : Word) : BitVec 1 := w.extractLsb' 16 1

/-- The angle, bits 15:0. -/
def angleField (w : Word) : BitVec 16 := w.extractLsb' 0 16

/-- The period, bits 7:0. -/
def periodField (w : Word) : BitVec 8 := w.extractLsb' 0 8

/-- d: 0 Forward, 1 Reverse (R52). -/
def dirOfBit (b : BitVec 1) : Dir := if b = 0#1 then .forward else .reverse

/-- l: 0 low, 1 high (R52). -/
def levelOfBit (b : BitVec 1) : Level := if b = 0#1 then .low else .high

/-! ## The opcode map (R53) -/

/-- A row of R53: a word w spells the operation exactly when `w &&& mask = pattern`. -/
structure OpcodeRow where
  opcode  : BitVec 8
  pattern : Word
  mask    : Word
  operands : Word → Instr

/-- The ten rows of R53, in its order. -/
def opcodeTable : List OpcodeRow :=
  [ ⟨0x10#8, 0x10000000#32, 0xFFFFFF00#32, fun w => .tpgConfig (periodField w).toNat⟩,
    ⟨0x11#8, 0x11000000#32, 0xFFFFFFFF#32, fun _ => .tpgTick⟩,
    ⟨0x20#8, 0x20000000#32, 0xFFFFFFFF#32, fun _ => .ctdEva⟩,
    ⟨0x21#8, 0x21000000#32, 0xFFFFFFFF#32, fun _ => .ctdEvb⟩,
    ⟨0x30#8, 0x30000000#32, 0xFFFEFFFF#32, fun w => .csmEdge (levelOfBit (bitField w))⟩,
    ⟨0x40#8, 0x40000000#32, 0xFFFE0000#32, fun w => .mcStart (dirOfBit (bitField w)) (angleField w).toNat⟩,
    ⟨0x41#8, 0x41000000#32, 0xFFFFFFFF#32, fun _ => .mcPoll⟩,
    ⟨0x42#8, 0x42000000#32, 0xFFFFFFFF#32, fun _ => .mcAck⟩,
    ⟨0x50#8, 0x50000000#32, 0xFFFFFFFF#32, fun _ => .mclStep⟩,
    ⟨0xF0#8, 0xF0000000#32, 0xFFFFFFFF#32, fun _ => .sysReset⟩ ]

/-- R54: find the opcode's row, test its mask, take the operands. Total, and independent of the machine's state. -/
def decode (w : Word) : Decoded :=
  match opcodeTable.find? (fun r => r.opcode == opcodeField w) with
  | none => .reject (.unassignedOpcode (opcodeField w))
  | some r =>
    if w &&& r.mask = r.pattern then .ok (r.operands w)
    else .reject (.reservedBitsSet (opcodeField w))

/-! ## The serialisation of words (R40, R41) -/

/-- A word's bytes, least significant first (R40). -/
def bytesOfWord (w : Word) : List Byte :=
  [w.extractLsb' 0 8, w.extractLsb' 8 8, w.extractLsb' 16 8, w.extractLsb' 24 8]

/-- The word four bytes spell, the first the least significant (R40). -/
def wordOfBytes (b0 b1 b2 b3 : Byte) : Word :=
  b3.setWidth 32 <<< 24 ||| b2.setWidth 32 <<< 16 ||| b1.setWidth 32 <<< 8 ||| b0.setWidth 32

/-- The words of a serialised trace, packed back to back from offset 0; none where the length is not a multiple of 4 (R41). -/
def wordsOfBytes : List Byte → Option (List Word)
  | [] => some []
  | b0 :: b1 :: b2 :: b3 :: rest => (wordsOfBytes rest).map (wordOfBytes b0 b1 b2 b3 :: ·)
  | _ :: _ => none

/-- Decode the first word of some bytes. -/
def decodeBytes : List Byte → Decoded
  | b0 :: b1 :: b2 :: b3 :: _ => decode (wordOfBytes b0 b1 b2 b3)
  | _ => .reject .truncated

/-- The instruction of a decoding, where there is one. -/
def Decoded.instr? : Decoded → Option Instr
  | .ok i => some i
  | .reject _ => none

/-- The instruction read from an opcode-table word's bits: laid out as its four bytes and decoded from them. -/
def decodeTableWord (nbits w : Nat) : Option Instr :=
  (decodeBytes (bytesOfWord (BitVec.ofNat 32 (w % 2 ^ nbits)))).instr?

/-! ## The encoder (R51) -/

/-- The bit of a direction (R52). -/
def bitOfDir : Dir → BitVec 1
  | .forward => 0#1
  | .reverse => 1#1

/-- The bit of a level (R52). -/
def bitOfLevel : Level → BitVec 1
  | .low => 0#1
  | .high => 1#1

/-- The opcode of an operation (R53). -/
def opcodeOf : Instr → BitVec 8
  | .tpgConfig _ => 0x10#8
  | .tpgTick     => 0x11#8
  | .ctdEva      => 0x20#8
  | .ctdEvb      => 0x21#8
  | .csmEdge _   => 0x30#8
  | .mcStart _ _ => 0x40#8
  | .mcPoll      => 0x41#8
  | .mcAck       => 0x42#8
  | .mclStep     => 0x50#8
  | .sysReset    => 0xF0#8

/-- The fields of R50 put together: {opcode, rsv = 0, d, imm16}. -/
def packWord (opcode : BitVec 8) (d : BitVec 1) (imm16 : BitVec 16) : Word :=
  opcode.setWidth 32 <<< 24 ||| d.setWidth 32 <<< 16 ||| imm16.setWidth 32

/-- The one-bit operand of an operation's format (R51). -/
def bitOperand : Instr → BitVec 1
  | .csmEdge l   => bitOfLevel l
  | .mcStart d _ => bitOfDir d
  | .tpgConfig _ => 0#1
  | .tpgTick     => 0#1
  | .ctdEva      => 0#1
  | .ctdEvb      => 0#1
  | .mcPoll      => 0#1
  | .mcAck       => 0#1
  | .mclStep     => 0#1
  | .sysReset    => 0#1

/-- The low half of an operation's word: the period in 7:0 (format P), the angle in 15:0 (format M), else 0 (R51). -/
def immOperand : Instr → BitVec 16
  | .tpgConfig p     => (BitVec.ofNat 8 p).setWidth 16
  | .mcStart _ angle => BitVec.ofNat 16 angle
  | .tpgTick         => 0#16
  | .ctdEva          => 0#16
  | .ctdEvb          => 0#16
  | .csmEdge _       => 0#16
  | .mcPoll          => 0#16
  | .mcAck           => 0#16
  | .mclStep         => 0#16
  | .sysReset        => 0#16

/-- The word that spells a well-formed operation (R51). -/
def encode (i : Instr) : Word := packWord (opcodeOf i) (bitOperand i) (immOperand i)

end Sys2Proof
end

