-- ==== Sys2Proof/Machine/State.lean ====
section
/-! DEFINITION. The state of TDCPG: the fourteen registers of 10_state.md R15, each field holding exactly the used bits
(R36, log entry 10), the operations presented to the machine and the parameters (the model's own, log entries 1 and 2);
the reasons a step can stop; the power-on state (R33, R115). -/

namespace Sys2Proof.Machine

/-- TIE (R19): bit 0 IEA, bit 1 IEB. -/
structure Tie where
  iea : Bool
  ieb : Bool
  deriving DecidableEq, Repr

/-- TIF (R20): bit 0 PA, bit 1 PB. -/
structure Tif where
  pa : Bool
  pb : Bool
  deriving DecidableEq, Repr

/-- PORT (R24): bit 0 COIL0, bit 1 COIL1, bit 2 STATUS. -/
structure Port where
  coil0  : Bool
  coil1  : Bool
  status : Bool
  deriving DecidableEq, Repr

/-- FSM.MCL (R27): 0 Idle, 1 Opening, 2 Holding, 3 Closing. -/
inductive Mcl where
  | idle
  | opening
  | holding
  | closing
  deriving DecidableEq, Repr

/-- FSM.MC (R27): 0 MC_IDLE, 1 MC_RUN, 2 MC_DONE. The value 3 "is never written"; three constructors as 93 V2 allows. -/
inductive Mc where
  | idle
  | run
  | done
  deriving DecidableEq, Repr

/-- FSM (R27): bits 1:0 MCL, bits 3:2 MC. -/
structure Fsm where
  mcl : Mcl
  mc  : Mc
  deriving DecidableEq, Repr

/-- ERR (R28): bit 0 RANGE, bit 1 PROTO, bit 2 ILL. -/
structure Err where
  range : Bool
  proto : Bool
  ill   : Bool
  deriving DecidableEq, Repr

/-- The state. The first fourteen fields are R15's registers, in its order. -/
structure State where
  /-- 0x00, the timer count (R16) -/
  tcnt    : Byte
  /-- 0x01, compare A, the period P (R17) -/
  ocra    : Byte
  /-- 0x02, compare B, P div 2 (R18) -/
  ocrb    : Byte
  /-- 0x03, compare interrupt enables (R19) -/
  tie     : Tie
  /-- 0x04, pending compare interrupts (R20) -/
  tif     : Tif
  /-- 0x05, StepCounter (R21) -/
  stepcnt : Byte
  /-- 0x06, target step count (R22) -/
  target  : Byte
  /-- 0x07, MAP.DIR (R23) -/
  map     : Dir
  /-- 0x08, the output lines (R24) -/
  port    : Port
  /-- 0x09, PIN.CRANK_N (R25) -/
  pin     : Level
  /-- 0x0A, CSR.CRANK (R26) -/
  csr     : Bool
  /-- 0x0B, the sequencer's and the motion controller's states (R27) -/
  fsm     : Fsm
  /-- 0x0C, sticky errors (R28) -/
  err     : Err
  /-- 0x0D, CFG.CFGD (R29) -/
  cfg     : Bool
  /-- The operation words presented to the machine, oldest first (R37). The model's own field, log entry 1. -/
  stream  : List Word
  /-- The parameters of R6; no operation writes them. The model's own field, log entry 2. -/
  params  : Params
  deriving DecidableEq, Repr

/-- Why a step cannot be taken: R9 outcome 2, "Not enabled", a stuck state (log entry 4). All three are safe: the machine
"has no step" there, and the model goes on nowhere the machine does not. -/
inductive Fault where
  /-- Raised by TPG.TICK while TIF ≠ 0b00 (R66). Safe. -/
  | tickNotEnabled
  /-- Raised by CTD.EVA while PA = 0 or in the overshoot hold (R77). Safe. -/
  | evaNotEnabled
  /-- Raised by CTD.EVB while PB = 0, or PA = 1, or in the overshoot hold (R78). Safe. -/
  | evbNotEnabled
  deriving DecidableEq, Repr

/-- Where the model answers nothing. -/
inductive Refusal where
  /-- Raised by `exec`'s arm of an instruction that has no meaning yet; no arm raises it. Safe. -/
  | notModelled (mnemonic : String)
  /-- Raised by `step` when no operation is presented (log entry 6). Safe. -/
  | noOperation
  /-- Raised by `loadTrace` on bytes whose length is not a multiple of 4 (R41, log entry 17). Safe. -/
  | malformedTrace
  deriving DecidableEq, Repr

/-- What an operation answers. -/
abbrev Result := Host.Outcome State Fault Refusal

/-- The power-on state (R115): R33's reset values, PIN at CRANK_PIN_RESET, nothing presented. -/
def State.powerOn (p : Params) : State where
  tcnt    := 0#8
  ocra    := 0#8
  ocrb    := 0#8
  tie     := ⟨false, false⟩
  tif     := ⟨false, false⟩
  stepcnt := 0#8
  target  := 0#8
  map     := .forward
  port    := ⟨false, false, false⟩
  pin     := p.crankPinReset
  csr     := false
  fsm     := ⟨.idle, .idle⟩
  err     := ⟨false, false, false⟩
  cfg     := false
  stream  := []
  params  := p

/-- The machine right after power-on, at R6's reference values. DESIGN CHOICE (log entries 2, 3): a claim about reset is
stated of `State.powerOn p` for every p. -/
def State.reset : State := State.powerOn Params.reference

end Sys2Proof.Machine
end

