-- ==== Sys2Proof/Machine/Operands.lean ====
section
/-! DEFINITION. What an operation's operands become: the period's register values (40 R64, R65), a channel's line
(41 R76) and an angle's steps (43 R90). -/

namespace Sys2Proof.Machine

/-- OCRA's value for the period p (R64). -/
def compareA (p : Nat) : Byte := BitVec.ofNat 8 p

/-- OCRB's value for the period p: "p div 2 -- = p >> 1", truncating, never rounding up (R64, R65). -/
def compareB (p : Nat) : Byte := compareA p >>> 1

/-- The two compare channels (R76). -/
inductive Channel where
  | a
  | b
  deriving DecidableEq, Repr

/-- The two coil lines (R24, R76). -/
inductive Line where
  | coil0
  | coil1
  deriving DecidableEq, Repr

/-- line_of(ch, dir), the table of R76. -/
def lineOf : Channel → Dir → Line
  | .a, .forward => .coil0
  | .a, .reverse => .coil1
  | .b, .forward => .coil1
  | .b, .reverse => .coil0

/-- Invert exactly one line (R75, R77, R78). -/
def Port.toggle (p : Port) : Line → Port
  | .coil0 => { p with coil0 := !p.coil0 }
  | .coil1 => { p with coil1 := !p.coil1 }

/-- The level of one line. -/
def Port.line (p : Port) : Line → Bool
  | .coil0 => p.coil0
  | .coil1 => p.coil1

/-- steps_of_angle(a), in unbounded natural arithmetic, truncating (R90). -/
def stepsOfAngle : AngleArith → Nat → Nat
  | .divFirst, a => a / 360 * stepsPerRev
  | .mulFirst, a => a * stepsPerRev / 360

end Sys2Proof.Machine
end

