-- ==== Sys2Proof/Machine/Flags.lean ====
section
/-! DEFINITION. Every condition and flag the rules compute: compare matches and pending bits (40 R66, R67), the enabling
conditions of TIMER and IRQ (40 R66, 41 R77, R78), the overshoot hold (41 R80), CrankState (42 R84), ERR (60 R118). -/

namespace Sys2Proof.Machine

/-- mA of R66: compare match A, on the count before the tick. -/
def matchA (s : State) : Bool := s.tcnt == s.ocra

/-- mB of R66: compare match B. -/
def matchB (s : State) : Bool := s.tcnt == s.ocrb

/-- The count after a tick: clear on compare A, else count + 1 mod 256 (R66). -/
def nextCount (s : State) : Byte := if matchA s then 0#8 else s.tcnt + 1#8

/-- TIF after a tick: a match is pending only if its channel is enabled at that tick (R66, R67). -/
def matchPending (s : State) : Tif := ⟨matchA s && s.tie.iea, matchB s && s.tie.ieb⟩

/-- Some compare event is pending: TIF ≠ 0b00. -/
def Tif.any (f : Tif) : Bool := f.pa || f.pb

/-- The pending bit of a channel. -/
def Tif.pending (f : Tif) : Channel → Bool
  | .a => f.pa
  | .b => f.pb

/-- A channel's request is consumed (R77, R78). -/
def Tif.clear (f : Tif) : Channel → Tif
  | .a => { f with pa := false }
  | .b => { f with pb := false }

/-- TPG.TICK is enabled iff TIF = 0b00 (R66). -/
def tickEnabled (s : State) : Bool := !s.tif.any

/-- The overshoot hold: FSM.MC = MC_RUN and STEPCNT ≥ TARGET + OVERSHOOT_MAX (R80). -/
def hold (s : State) : Bool :=
  s.fsm.mc == .run && decide (s.target.toNat + s.params.overshootMax ≤ s.stepcnt.toNat)

/-- CTD.EVA is enabled iff PA = 1 and not hold (R77). -/
def evaEnabled (s : State) : Bool := s.tif.pa && !hold s

/-- CTD.EVB is enabled iff PB = 1, PA = 0 and not hold (R78). -/
def evbEnabled (s : State) : Bool := s.tif.pb && !s.tif.pa && !hold s

/-- The wait of step 6 is over: STEPCNT reaches or exceeds TARGET, unsigned (R95). -/
def targetReached (s : State) : Bool := decide (s.target.toNat ≤ s.stepcnt.toNat)

/-- CrankState sampled from a level: "true when low, false when high" (R84). -/
def crankOfLevel : Level → Bool
  | .low => true
  | .high => false

/-- The bits of ERR (R28). -/
inductive ErrBit where
  | range
  | proto
  | ill
  deriving DecidableEq, Repr

/-- ERR with one more bit set; the others keep their values (R28, R122). -/
def Err.set (e : Err) : ErrBit → Err
  | .range => { e with range := true }
  | .proto => { e with proto := true }
  | .ill => { e with ill := true }

/-- One bit of ERR. -/
def Err.bit (e : Err) : ErrBit → Bool
  | .range => e.range
  | .proto => e.proto
  | .ill => e.ill

end Sys2Proof.Machine
end

