-- ==== Sys2Proof/Machine/Ops.lean ====
section
/-! DEFINITION. The named operations over the registers that the meanings share: the procedures of 40 R70 to R72 and
41 R79, a handler's effect (41 R77, R78), raising an error (60 R118), legality (00 R11, R9), reset (45 R113), and taking
the next operation word from the stream (20 R37). A write takes effect at an operation's end (R11): each names the fields
it changes and reads only the state it is given. -/

namespace Sys2Proof.Machine

/-! ## Procedures of the other families -/

/-- tpg_clear(): TCNT <- 0 (R70). -/
def tpgClear (s : State) : State := { s with tcnt := 0#8 }

/-- tpg_irq_enable(): TIF <- 0b00, IEA <- 1, IEB <- 1 (R71). -/
def tpgIrqEnable (s : State) : State := { s with tif := ⟨false, false⟩, tie := ⟨true, true⟩ }

/-- tpg_irq_disable(): IEA <- 0, IEB <- 0, TIF <- 0b00 (R72). -/
def tpgIrqDisable (s : State) : State := { s with tie := ⟨false, false⟩, tif := ⟨false, false⟩ }

/-- ctd_install(d): MAP.DIR <- d (R79). -/
def ctdInstall (d : Dir) (s : State) : State := { s with map := d }

/-! ## Register writes the meanings share -/

/-- TPG.CONFIG's writes (R64). -/
def setPeriod (p : Nat) (s : State) : State := { s with ocra := compareA p, ocrb := compareB p, cfg := true }

/-- TPG.TICK's writes (R66). -/
def countTick (s : State) : State := { s with tcnt := nextCount s, tif := matchPending s }

/-- A handler's writes: invert the channel's line, count the step, consume the request (R77, R78). -/
def serviceEvent (ch : Channel) (s : State) : State :=
  { s with
    port := s.port.toggle (lineOf ch s.map)
    stepcnt := s.stepcnt + 1#8
    tif := s.tif.clear ch }

/-- CSM.EDGE's writes at an edge (R84). -/
def samplePin (l : Level) (s : State) : State := { s with pin := l, csr := crankOfLevel l }

/-- STEPCNT <- 0 (R91 step 2). -/
def clearSteps (s : State) : State := { s with stepcnt := 0#8 }

/-- TARGET <- t (R91). -/
def setTarget (t : Nat) (s : State) : State := { s with target := BitVec.ofNat 8 t }

/-- FSM.MC <- m. -/
def setMc (m : Mc) (s : State) : State := { s with fsm := { s.fsm with mc := m } }

/-- FSM.MCL <- m. -/
def setMcl (m : Mcl) (s : State) : State := { s with fsm := { s.fsm with mcl := m } }

/-- PORT.STATUS <- b (R109). -/
def setStatus (b : Bool) (s : State) : State := { s with port := { s.port with status := b } }

/-- SYS.RESET's writes: every register but PIN takes its reset value (R113, R114). -/
def resetRegisters (s : State) : State :=
  { s with
    tcnt := 0#8
    ocra := 0#8
    ocrb := 0#8
    tie := ⟨false, false⟩
    tif := ⟨false, false⟩
    stepcnt := 0#8
    target := 0#8
    map := .forward
    port := ⟨false, false, false⟩
    csr := false
    fsm := ⟨.idle, .idle⟩
    err := ⟨false, false, false⟩
    cfg := false }

/-! ## Raising an error

TDCPG has no trap: nothing is saved, no mode changes, control goes nowhere and there is no return (R118, R128, R129). -/

/-- raise ERR.X: bit X of ERR becomes 1 and nothing else changes (R118). -/
def raiseErr (e : ErrBit) (s : State) : State := { s with err := s.err.set e }

/-- `require c else raise ERR.X` (R11, R9 outcome 3): perform the operation, or refuse it by the error bit alone. -/
def require (c : Bool) (e : ErrBit) (perform : State → State) (s : State) : State :=
  if c then perform s else raiseErr e s

/-- A foreground word that one HOST_MODE accepts (R60, R120). -/
def requireMode (m : HostMode) (perform : State → State) (s : State) : State :=
  require (s.params.hostMode == m) .proto perform s

/-- What the machine does with an illegal word: raise ERR.ILL (R55, R121). -/
def illegalWord (s : State) : State := raiseErr .ill s

/-! ## The operation stream (R37, log entry 1) -/

/-- The next word presented, and the state with it taken from the stream. -/
def takeWord (s : State) : Option (Word × State) :=
  match s.stream with
  | [] => none
  | w :: rest => some (w, { s with stream := rest })

/-- Present one more word, as the next the machine takes. -/
def present (w : Word) (s : State) : State := { s with stream := w :: s.stream }

/-- Present a serialised trace; one whose length is not a multiple of 4 is refused before the machine sees anything
(R41, log entry 17). -/
def loadTrace (bytes : List Byte) (s : State) : Result :=
  match wordsOfBytes bytes with
  | some ws => .next { s with stream := ws }
  | none => .refused .malformedTrace

end Sys2Proof.Machine
end

