-- ==== Sys2Proof/Machine/Csm.lean ====
section
/-! DEFINITION. CSM, the crank sense monitor: CSM.EDGE (42_crank_sense_monitor.md). -/

namespace Sys2Proof.Machine

/-- CSM.EDGE l: at an edge the pin goes to l and CRANK is sampled from it (R84); with the level the pin already has, a
performed step with no effect and no re-sample (R85). -/
def execCsmEdge (l : Level) (s : State) : Result :=
  .next (if l = s.pin then s else samplePin l s)

end Sys2Proof.Machine
end

