-- ==== Sys2Proof/Machine/Ctd.lean ====
section
/-! DEFINITION. CTD, the coil toggle driver: CTD.EVA and CTD.EVB (41_coil_toggle_driver.md). -/

namespace Sys2Proof.Machine

/-- CTD.EVA: service compare event A, enabled iff PA = 1 and not hold (R77). -/
def execCtdEva (s : State) : Result :=
  if evaEnabled s then .next (serviceEvent .a s) else .fault .evaNotEnabled

/-- CTD.EVB: service compare event B, enabled iff PB = 1 and PA = 0 and not hold (R78). -/
def execCtdEvb (s : State) : Result :=
  if evbEnabled s then .next (serviceEvent .b s) else .fault .evbNotEnabled

end Sys2Proof.Machine
end

