-- ==== Sys2Proof/Machine/Mc.lean ====
section
/-! DEFINITION. MC, the motion controller: the three calls of 43_motion_controller.md, which MCL.STEP performs inside its
own step, and the three words, which only HOST_MODE = Direct accepts (30 R60). -/

namespace Sys2Proof.Machine

/-! ## The calls -/

/-- Steps 3 to 5 for a computed target t: out of range (R93), zero (R92), or armed (R91). -/
def armMove (t : Nat) (s : State) : State :=
  if s.params.targetMax < t then setMc .done (raiseErr .range (setTarget 0 s))
  else if t = 0 then setMc .done (setTarget 0 s)
  else setMc .run (tpgIrqEnable (tpgClear (setTarget t s)))

/-- Steps 1 to 5: install the direction, clear the count, compute the target and arm (R91). -/
def beginMove (d : Dir) (angle : Nat) (s : State) : State :=
  armMove (stepsOfAngle s.params.angleArith angle) (clearSteps (ctdInstall d s))

/-- MC.START d, angle: legal when configured and no call is in progress (R91). -/
def mcStart (d : Dir) (angle : Nat) (s : State) : State :=
  require (s.cfg && s.fsm.mc == .idle) .proto (beginMove d angle) s

/-- One iteration of the busy-wait, and the disable when the target is reached (R95, R72). -/
def pollMove (s : State) : State :=
  if targetReached s then setMc .done (tpgIrqDisable s) else s

/-- MC.POLL: legal while a move runs (R95). -/
def mcPoll (s : State) : State := require (s.fsm.mc == .run) .proto pollMove s

/-- MC.ACK: legal when the call has returned; the caller resumes (R96). -/
def mcAck (s : State) : State := require (s.fsm.mc == .done) .proto (setMc .idle) s

/-! ## The words -/

/-- The word MC.START d, angle (R91, R60). -/
def execMcStart (d : Dir) (angle : Nat) (s : State) : Result := .next (requireMode .direct (mcStart d angle) s)

/-- The word MC.POLL (R95, R60). -/
def execMcPoll (s : State) : Result := .next (requireMode .direct mcPoll s)

/-- The word MC.ACK (R96, R60). -/
def execMcAck (s : State) : Result := .next (requireMode .direct mcAck s)

end Sys2Proof.Machine
end

