-- ==== Sys2Proof/Machine/Mcl.lean ====
section
/-! DEFINITION. MCL, the main control loop: MCL.STEP (44_main_control_loop.md). -/

namespace Sys2Proof.Machine

/-- Idle: to Opening when CRANK = 1, the status line on (R105, R109). -/
def mclIdle (s : State) : State :=
  if s.csr then setStatus true (setMcl .opening s) else s

/-- One step of a move the sequencer commands: start it, poll it, or take its return (R104, R106, R108). -/
def mclMove (d : Dir) (onReturn : State → State) (s : State) : State :=
  match s.fsm.mc with
  | .idle => mcStart d s.params.moveAngle.val s
  | .run => mcPoll s
  | .done => onReturn (mcAck s)

/-- Opening: the move with OPEN_DIR, then Holding (R106). -/
def mclOpening (s : State) : State := mclMove s.params.openDir (setMcl .holding) s

/-- Holding: to Closing when CRANK = 0 (R107). -/
def mclHolding (s : State) : State := if s.csr then s else setMcl .closing s

/-- Closing: the move with the reversed assignment, then Idle, the status line off (R108, R109). -/
def mclClosing (s : State) : State :=
  mclMove s.params.openDir.flip (fun u => setStatus false (setMcl .idle u)) s

/-- The arm of the sequencer's state (R104). -/
def mclArm (s : State) : State :=
  match s.fsm.mcl with
  | .idle => mclIdle s
  | .opening => mclOpening s
  | .holding => mclHolding s
  | .closing => mclClosing s

/-- MCL.STEP: one evaluation of the sequencer; legal in HOST_MODE = Sequencer once configured (R104, R60). -/
def execMclStep (s : State) : Result :=
  .next (requireMode .sequencer (require s.cfg .proto mclArm) s)

end Sys2Proof.Machine
end

