-- ==== Sys2Proof/Machine/Sys.lean ====
section
/-! DEFINITION. SYS: SYS.RESET (45_system.md). -/

namespace Sys2Proof.Machine

/-- SYS.RESET: always enabled, in every state (R113, R114). -/
def execSysReset (s : State) : Result := .next (resetRegisters s)

end Sys2Proof.Machine
end

