-- ==== Sys2Proof/Machine/Tpg.lean ====
section
/-! DEFINITION. TPG, the timer pulse generator: TPG.CONFIG and TPG.TICK (40_timer_pulse_generator.md). -/

namespace Sys2Proof.Machine

/-- TPG.CONFIG p: configure the period, once; refused with ERR.PROTO when CFGD = 1 (R64). -/
def execTpgConfig (p : Nat) (s : State) : Result :=
  .next (require (!s.cfg) .proto (setPeriod p) s)

/-- TPG.TICK: one count of the timer clock, enabled iff TIF = 0b00 (R66). -/
def execTpgTick (s : State) : Result :=
  if tickEnabled s then .next (countTick s) else .fault .tickNotEnabled

end Sys2Proof.Machine
end

