-- ==== Sys2Proof/Machine/Dispatch.lean ====
section
/-! DEFINITION. The dispatch: each operation's meaning, one arm a constructor (30_encoding.md R53). -/

namespace Sys2Proof.Machine

/-- What an operation presented to the machine does (00_scope.md R9). -/
def exec (i : Instr) (s : State) : Host.Outcome State Fault Refusal :=
  match i with
  | .tpgConfig p => Sys2Proof.Machine.execTpgConfig p s
  | .tpgTick => Sys2Proof.Machine.execTpgTick s
  | .ctdEva => Sys2Proof.Machine.execCtdEva s
  | .ctdEvb => Sys2Proof.Machine.execCtdEvb s
  | .csmEdge l => Sys2Proof.Machine.execCsmEdge l s
  | .mcStart d angle => Sys2Proof.Machine.execMcStart d angle s
  | .mcPoll => Sys2Proof.Machine.execMcPoll s
  | .mcAck => Sys2Proof.Machine.execMcAck s
  | .mclStep => Sys2Proof.Machine.execMclStep s
  | .sysReset => Sys2Proof.Machine.execSysReset s

end Sys2Proof.Machine
end

