-- ==== Sys2Proof/Machine/Step.lean ====
section
/-! DEFINITION. One step of the machine: take the next word presented, decode it, perform the operation it spells or
raise ERR.ILL (00_scope.md R8, R9; 30_encoding.md R54, R55). -/

namespace Sys2Proof.Machine

/-- One step. With no word presented there is nothing to perform (log entry 6). -/
def step (s : State) : Host.Outcome State Fault Refusal :=
  match takeWord s with
  | none => .refused .noOperation
  | some (w, s') =>
    match decode w with
    | .ok i => exec i s'
    | .reject _ => .next (illegalWord s')

/-- The state with one more word presented, the next that `step` takes (log entry 7). -/
def State.withFetchWord (s : State) (nbits w : Nat) : State :=
  present (BitVec.ofNat 32 (w % 2 ^ nbits)) s

end Sys2Proof.Machine
end

