-- ==== Sys2Proof/Machine/Assembler.lean ====
section
/-! DEFINITION. The textual form of 30_encoding.md R58, one operation a line, as a function on the line's characters; what
R58 leaves open of it is log entry 14. -/

namespace Sys2Proof.Machine

/-- Why a line is no operation. -/
inductive AsmReject where
  /-- the mnemonic is none of R58's -/
  | unknownMnemonic
  /-- the operands do not have the shape the mnemonic asks for -/
  | badOperands
  /-- "an operand out of range is an assembler error" (R58) -/
  | outOfRange
  deriving DecidableEq, Repr

/-- What a line says. -/
inductive AsmLine where
  /-- nothing but blanks and a comment -/
  | blank
  | op (i : Instr)
  | error (why : AsmReject)
  deriving DecidableEq, Repr

/-- A blank between the parts of a line. -/
def isBlank (c : Char) : Bool := c == ' ' || c == '\t' || c == '\r'

/-- A `;` starts a comment to the end of the line. -/
def stripComment (cs : List Char) : List Char := cs.takeWhile (· != ';')

/-- The characters without blanks at either end. -/
def trim (cs : List Char) : List Char :=
  ((cs.dropWhile isBlank).reverse.dropWhile isBlank).reverse

/-- The operands of a line, separated by commas; none where nothing is left. -/
def splitCommas : List Char → List (List Char)
  | [] => [[]]
  | c :: cs =>
    match c == ',', splitCommas cs with
    | true, parts => [] :: parts
    | false, p :: ps => (c :: p) :: ps
    | false, [] => [[c]]

/-- The value of a digit in base 10 or 16. -/
def digitValue (base : Nat) (c : Char) : Option Nat :=
  let v := if '0' ≤ c ∧ c ≤ '9' then c.toNat - '0'.toNat
    else if 'a' ≤ c ∧ c ≤ 'f' then c.toNat - 'a'.toNat + 10
    else if 'A' ≤ c ∧ c ≤ 'F' then c.toNat - 'A'.toNat + 10
    else 16
  if v < base then some v else none

/-- The digits of a number, most significant first, after the value read so far. -/
def digits (base : Nat) : Nat → List Char → Option Nat
  | acc, [] => some acc
  | acc, c :: cs => (digitValue base c).bind fun v => digits base (acc * base + v) cs

/-- A decimal or `0x` hexadecimal natural. -/
def number : List Char → Option Nat
  | [] => none
  | '0' :: 'x' :: c :: cs => digits 16 0 (c :: cs)
  | c :: cs => digits 10 0 (c :: cs)

/-- `0`, `1`, `low` or `high`. -/
def levelOperand (cs : List Char) : Except AsmReject Level :=
  if cs = "low".toList then .ok .low
  else if cs = "high".toList then .ok .high
  else match number cs with
    | some 0 => .ok .low
    | some 1 => .ok .high
    | some _ => .error .outOfRange
    | none => .error .badOperands

/-- `0`, `1`, `fwd` or `rev`. -/
def dirOperand (cs : List Char) : Except AsmReject Dir :=
  if cs = "fwd".toList then .ok .forward
  else if cs = "rev".toList then .ok .reverse
  else match number cs with
    | some 0 => .ok .forward
    | some 1 => .ok .reverse
    | some _ => .error .outOfRange
    | none => .error .badOperands

/-- A natural operand. -/
def natOperand (cs : List Char) : Except AsmReject Nat :=
  match number cs with
  | some n => .ok n
  | none => .error .badOperands

/-- The operation of a mnemonic in lower case and its operands. -/
def parseOperation (mnemonic : List Char) (operands : List (List Char)) : Except AsmReject Instr :=
  if mnemonic = "tpg.config".toList then
    match operands with
    | [p] => (natOperand p).map .tpgConfig
    | _ => .error .badOperands
  else if mnemonic = "csm.edge".toList then
    match operands with
    | [l] => (levelOperand l).map .csmEdge
    | _ => .error .badOperands
  else if mnemonic = "mc.start".toList then
    match operands with
    | [d, a] => (dirOperand d).bind fun d => (natOperand a).map (.mcStart d)
    | _ => .error .badOperands
  else
    let bare (i : Instr) : Except AsmReject Instr :=
      if operands = [] then .ok i else .error .badOperands
    if mnemonic = "tpg.tick".toList then bare .tpgTick
    else if mnemonic = "ctd.eva".toList then bare .ctdEva
    else if mnemonic = "ctd.evb".toList then bare .ctdEvb
    else if mnemonic = "mc.poll".toList then bare .mcPoll
    else if mnemonic = "mc.ack".toList then bare .mcAck
    else if mnemonic = "mcl.step".toList then bare .mclStep
    else if mnemonic = "sys.reset".toList then bare .sysReset
    else .error .unknownMnemonic

/-- One line: strip the comment, read the mnemonic (case-insensitive) and the operands, check their ranges (R52, R58). -/
def assembleLine (line : List Char) : AsmLine :=
  match trim (stripComment line) with
  | [] => .blank
  | cs =>
    let rest := trim (cs.dropWhile fun c => !isBlank c)
    let operands := if rest = [] then [] else (splitCommas rest).map trim
    match parseOperation ((cs.takeWhile fun c => !isBlank c).map Char.toLower) operands with
    | .error why => .error why
    | .ok i => if i.wellFormed then .op i else .error .outOfRange

end Sys2Proof.Machine
end

