-- ==== Sys2Proof/Machine/Observe.lean ====
section
/-! DEFINITION. RegRead, the observation of a register's byte (45_system.md R116, 20_memory.md R38): a function of the
state, no operation, no side effect (R42). Unused bits read 0 (R36). -/

namespace Sys2Proof.Machine

/-- The bit a Boolean is: true 1, false 0 (R10). -/
def bitOfBool (b : Bool) : BitVec 1 := BitVec.ofBool b

/-- FSM.MCL's encoding (R27). -/
def Mcl.code : Mcl → BitVec 2
  | .idle => 0#2
  | .opening => 1#2
  | .holding => 2#2
  | .closing => 3#2

/-- FSM.MC's encoding (R27). -/
def Mc.code : Mc → BitVec 2
  | .idle => 0#2
  | .run => 1#2
  | .done => 2#2

/-- TIE as a byte (R19). -/
def Tie.byte (r : Tie) : Byte := 0#6 ++ bitOfBool r.ieb ++ bitOfBool r.iea

/-- TIF as a byte (R20). -/
def Tif.byte (r : Tif) : Byte := 0#6 ++ bitOfBool r.pb ++ bitOfBool r.pa

/-- MAP as a byte (R23). -/
def mapByte (d : Dir) : Byte :=
  match d with
  | .forward => 0x00#8
  | .reverse => 0x01#8

/-- PORT as a byte (R24). -/
def Port.byte (r : Port) : Byte := 0#5 ++ bitOfBool r.status ++ bitOfBool r.coil1 ++ bitOfBool r.coil0

/-- PIN as a byte (R25). -/
def pinByte (l : Level) : Byte :=
  match l with
  | .low => 0x00#8
  | .high => 0x01#8

/-- FSM as a byte (R27). -/
def Fsm.byte (r : Fsm) : Byte := 0#4 ++ r.mc.code ++ r.mcl.code

/-- ERR as a byte (R28). -/
def Err.byte (r : Err) : Byte := 0#5 ++ bitOfBool r.ill ++ bitOfBool r.proto ++ bitOfBool r.range

/-- CSR (R26) and CFG (R29) as bytes. -/
def boolByte (b : Bool) : Byte := 0#7 ++ bitOfBool b

/-- RegRead(n): the register numbered n if n ≤ 0x0D, and 0x00 otherwise (R116, R15). -/
def regRead (s : State) (n : Byte) : Byte :=
  match n.toNat with
  | 0x00 => s.tcnt
  | 0x01 => s.ocra
  | 0x02 => s.ocrb
  | 0x03 => s.tie.byte
  | 0x04 => s.tif.byte
  | 0x05 => s.stepcnt
  | 0x06 => s.target
  | 0x07 => mapByte s.map
  | 0x08 => s.port.byte
  | 0x09 => pinByte s.pin
  | 0x0A => boolByte s.csr
  | 0x0B => s.fsm.byte
  | 0x0C => s.err.byte
  | 0x0D => boolByte s.cfg
  | _ => 0x00#8

/-- The fourteen bytes RegRead(0x00) to RegRead(0x0D), as 95_test_vectors.md writes a state. -/
def regBytes (s : State) : List Byte := (List.range 14).map fun n => regRead s (BitVec.ofNat 8 n)

end Sys2Proof.Machine
end

