-- ==== Sys2Proof/Machine/Pseudo.lean ====
section
/-! DEFINITION. The pseudo-operations of 30_encoding.md R59. Each is expanded while running: it answers the operations it
expands to in the state it is given, and the state after them. None adds behaviour. -/

namespace Sys2Proof.Machine

/-- A schedule's operations, oldest first, and the state after them. -/
structure Expansion where
  ops   : List Instr
  final : State
  deriving DecidableEq, Repr

/-- Nothing performed. -/
def Expansion.empty (s : State) : Expansion := ⟨[], s⟩

/-- Perform one operation if it has a step. -/
def attempt (i : Instr) (s : State) : Expansion :=
  match exec i s with
  | .next t => ⟨[i], t⟩
  | .fault _ => .empty s
  | .refused _ => .empty s

/-- Go on from where an expansion ended. -/
def Expansion.andThen (e : Expansion) (more : State → Expansion) : Expansion :=
  let e' := more e.final
  ⟨e.ops ++ e'.ops, e'.final⟩

/-- `service`: CTD.EVA if enabled, then CTD.EVB if enabled. -/
def service (s : State) : Expansion := (attempt .ctdEva s).andThen (attempt .ctdEvb)

/-- `tick 1` where TPG.TICK is enabled: the tick, then every pending event serviced, A before B. -/
def tickOnce (s : State) : Expansion := (attempt .tpgTick s).andThen service

/-- `tick n`, the eager IRQ schedule; it stops where the next tick is not enabled. -/
def tick : Nat → State → Expansion
  | 0, s => .empty s
  | n + 1, s => if tickEnabled s then (tickOnce s).andThen (tick n) else .empty s

/-- `crank on`: the pin goes low. -/
def crankOn (s : State) : Expansion := attempt (.csmEdge .low) s

/-- `crank off`: the pin goes high. -/
def crankOff (s : State) : Expansion := attempt (.csmEdge .high) s

/-- The loop of `move`: poll, and tick once while the move runs, until FSM.MC = MC_DONE; at most `fuel` polls (log entry 13). -/
def moveLoop : Nat → State → Expansion
  | 0, s => .empty s
  | fuel + 1, s =>
    (attempt .mcPoll s).andThen fun t =>
      match t.fsm.mc with
      | .run => (tick 1 t).andThen (moveLoop fuel)
      | .idle => moveLoop fuel t
      | .done => .empty t

/-- `move d, angle` (Direct mode), the eager FG schedule. Read to the letter, the loop polls at least once, also after a
move that returned at once (log entry 13). -/
def move (fuel : Nat) (d : Dir) (angle : Nat) (s : State) : Expansion :=
  ((attempt (.mcStart d angle) s).andThen (moveLoop fuel)).andThen fun t =>
    if t.fsm.mc = .done then attempt .mcAck t else .empty t

/-- `run n` (Sequencer mode): n times MCL.STEP, then `tick 1` if TPG.TICK is enabled. -/
def run : Nat → State → Expansion
  | 0, s => .empty s
  | n + 1, s => ((attempt .mclStep s).andThen (tick 1)).andThen (run n)

/-- Perform the operations of a list in turn; where one has no step the list is no execution (R9 outcome 2). -/
def perform : List Instr → State → Result
  | [], s => .next s
  | i :: rest, s =>
    match exec i s with
    | .next t => perform rest t
    | .fault f => .fault f
    | .refused r => .refused r

end Sys2Proof.Machine
end

