-- ==== Sys2Proof/Safety.lean ====
section
/-! DEFINITION. The terms claims use: what is a safe run (60_exceptions.md R122), which presentations are executions (R60),
the invariants of 10_state.md R35, runs of a move, event times (40 R68), toggle counts (41 R81, 43 R99), expansions (30 R59), fairness (70 R152). -/

namespace Sys2Proof.Machine

/-! ## Errors, resting points, executions -/

/-- ERR = 0, the premise of "every claim about TDCPG" (R122). -/
abbrev NoError (s : State) : Prop := s.err = ⟨false, false, false⟩

/-- "No further coil toggling": TIE = 0 and TIF = 0 (R12). -/
abbrev Quiescent (s : State) : Prop := s.tie = ⟨false, false⟩ ∧ s.tif = ⟨false, false⟩

/-- The resting points of R158. -/
abbrev Resting (s : State) : Prop :=
  s.fsm.mc = .idle ∧ Quiescent s ∧
    (s.params.hostMode = .sequencer → s.fsm.mcl = .idle ∨ s.fsm.mcl = .holding)

/-- A word and the agent that presents it. -/
structure Presented where
  agent : Agent
  word  : Word
  deriving DecidableEq, Repr

/-- "A legal word is accepted only from the agent R53 lists for it"; an illegal word may come from any agent (R60, R121). -/
def Presented.admissible (p : Presented) : Bool :=
  match decode p.word with
  | .ok i => p.agent == i.agent
  | .reject _ => true

/-! ## The invariants of R35, item by item -/

/-- Item 1: OCRB = OCRA div 2. -/
abbrev HalfPeriod (s : State) : Prop := s.ocrb.toNat = s.ocra.toNat / 2

/-- Item 2: TCNT ≤ OCRA. -/
abbrev CountInPeriod (s : State) : Prop := s.tcnt.toNat ≤ s.ocra.toNat

/-- Item 3: TIE ∈ {0b00, 0b11}, and 0b11 exactly when FSM.MC = MC_RUN. -/
abbrev EnablesFollowCall (s : State) : Prop :=
  s.tie = if s.fsm.mc = .run then ⟨true, true⟩ else ⟨false, false⟩

/-- Item 4: TIF ≠ 0 only when FSM.MC = MC_RUN. -/
abbrev PendingOnlyInMove (s : State) : Prop := s.tif ≠ ⟨false, false⟩ → s.fsm.mc = .run

/-- Item 5: while MC_RUN, 1 ≤ TARGET ≤ TARGET_MAX and STEPCNT ≤ TARGET + OVERSHOOT_MAX ≤ 255. -/
abbrev MoveBounded (s : State) : Prop :=
  s.fsm.mc = .run →
    1 ≤ s.target.toNat ∧ s.target.toNat ≤ s.params.targetMax ∧
      s.stepcnt.toNat ≤ s.target.toNat + s.params.overshootMax ∧ s.target.toNat + s.params.overshootMax ≤ 255

/-- Item 7: which sequencer states go with a call, and what the status line shows, in either HOST_MODE. -/
abbrev SequencerConsistent (s : State) : Prop :=
  match s.params.hostMode with
  | .sequencer =>
    (s.fsm.mc ≠ .idle → s.fsm.mcl = .opening ∨ s.fsm.mcl = .closing) ∧
      (s.port.status = true ↔ s.fsm.mcl ≠ .idle)
  | .direct => s.fsm.mcl = .idle ∧ s.port.status = false

/-- Item 8: what is still at 0 before the configuration. -/
abbrev UnconfiguredAtRest (s : State) : Prop :=
  s.cfg = false →
    s.ocra = 0#8 ∧ s.tie = ⟨false, false⟩ ∧ s.fsm = ⟨.idle, .idle⟩ ∧ s.stepcnt = 0#8 ∧
      s.port = ⟨false, false, false⟩

/-- R35's invariants together. Item 6, FSM.MC ≠ 3, holds by the field's type (log entry 10). -/
structure Invariants (s : State) : Prop where
  halfPeriod   : HalfPeriod s
  count        : CountInPeriod s
  enables      : EnablesFollowCall s
  pending      : PendingOnlyInMove s
  bounded      : MoveBounded s
  sequencer    : SequencerConsistent s
  unconfigured : UnconfiguredAtRest s

/-! ## Runs -/

/-- The states a power-on with the parameters p and some words presented leads to. -/
inductive Reachable (p : Params) : State → Prop where
  | powerOn (words : List Word) : Reachable p { State.powerOn p with stream := words }
  | step {s t : State} : Reachable p s → step s = .next t → Reachable p t

/-- A move has just been armed: what MC.START leaves in MC_RUN (R91). -/
abbrev JustArmed (s : State) : Prop :=
  s.fsm.mc = .run ∧ s.tcnt = 0#8 ∧ s.stepcnt = 0#8 ∧ s.tif = ⟨false, false⟩

/-- The operation the next step performs, where a legal word is presented. -/
def nextOperation (s : State) : Option Instr :=
  match s.stream with
  | [] => none
  | w :: _ => (decode w).instr?

/-- One more event, where the next operation is the handler i. -/
def eventsWith (i : Instr) (s : State) (n : Nat) : Nat := if nextOperation s = some i then n + 1 else n

/-- `MoveRun s₀ a b s`: from the armed state s₀ the machine came to s under some schedule, as long as the move runs, up to
and with the state its end leaves; on the way a events of channel A and b of channel B were serviced. A reset, which leaves
MC_IDLE, is not of the move. -/
inductive MoveRun (s₀ : State) : Nat → Nat → State → Prop where
  | start : MoveRun s₀ 0 0 s₀
  | step {a b : Nat} {s t : State} :
      MoveRun s₀ a b s → s.fsm.mc = .run → step s = .next t → t.fsm.mc ≠ .idle →
        MoveRun s₀ (eventsWith .ctdEva s a) (eventsWith .ctdEvb s b) t

/-! ## What a move's calls leave, written from R91 to R93 and R95 -/

/-- The state t that beginning a move of so many steps leaves: steps 1 to 3 always; out of range: TARGET 0, ERR.RANGE,
MC_DONE; zero: TARGET 0, MC_DONE; else steps 4 and 5 and MC_RUN. -/
def MoveBegun (s : State) (d : Dir) (steps : Nat) (t : State) : Prop :=
  (255 - s.params.overshootMax < steps →
    t = { s with map := d, stepcnt := 0#8, target := 0#8, err := { s.err with range := true },
                 fsm := { s.fsm with mc := .done } }) ∧
  (steps = 0 →
    t = { s with map := d, stepcnt := 0#8, target := 0#8, fsm := { s.fsm with mc := .done } }) ∧
  (1 ≤ steps → steps ≤ 255 - s.params.overshootMax →
    t.target.toNat = steps ∧
    t = { s with map := d, stepcnt := 0#8, target := t.target, tcnt := 0#8, tif := ⟨false, false⟩,
                 tie := ⟨true, true⟩, fsm := { s.fsm with mc := .run } })

/-- The state t that one poll of a running move leaves (R95). -/
def MovePolled (s t : State) : Prop :=
  (s.target.toNat ≤ s.stepcnt.toNat →
    t = { s with tie := ⟨false, false⟩, tif := ⟨false, false⟩, fsm := { s.fsm with mc := .done } }) ∧
  (s.stepcnt.toNat < s.target.toNat → t = s)

/-- The table of R120: when a word is refused with ERR.PROTO. -/
def protoRefused (s : State) : Instr → Prop
  | .tpgConfig _ => s.cfg = true
  | .mcStart _ _ => s.params.hostMode = .sequencer ∨ s.cfg = false ∨ s.fsm.mc ≠ .idle
  | .mcPoll => s.params.hostMode = .sequencer ∨ s.fsm.mc ≠ .run
  | .mcAck => s.params.hostMode = .sequencer ∨ s.fsm.mc ≠ .done
  | .mclStep => s.params.hostMode = .direct ∨ s.cfg = false
  | .tpgTick | .ctdEva | .ctdEvb | .csmEdge _ | .sysReset => False

/-! ## Event times and counts -/

/-- E(n): the number of matches in the first n ticks of a move with period P (R68). -/
def eventCount (P n : Nat) : Nat := n / (P + 1) + (n + P - P / 2) / (P + 1)

/-- T(j): the tick of the j-th event (R68). -/
def eventTick (P j : Nat) : Nat :=
  if j % 2 = 1 then (j - 1) / 2 * (P + 1) + P / 2 + 1 else j / 2 * (P + 1)

/-- The events of a channel among the n events of a move with period P, the table of R81. -/
def channelEvents (P n : Nat) : Channel → Nat
  | .a => if P = 0 then n - n / 2 else n / 2
  | .b => if P = 0 then n / 2 else n - n / 2

/-- The toggles of a line in a move that services n events under the assignment d, the table of R99. -/
def lineToggles (P n : Nat) (d : Dir) (l : Line) : Nat :=
  channelEvents P n (if lineOf .a d = l then .a else .b)

/-- A level after so many inversions. -/
def afterToggles (level : Bool) (toggles : Nat) : Bool := xor level (decide (toggles % 2 = 1))

/-! ## The expansions of R59, as relations -/

/-- `Tried i s ops t`: i "if enabled"; where it has no step nothing is performed. -/
def Tried (i : Instr) (s : State) (ops : List Instr) (t : State) : Prop :=
  (exec i s = .next t ∧ ops = [i]) ∨ ((∀ u, exec i s ≠ .next u) ∧ ops = [] ∧ t = s)

/-- `PolledToDone s ops t`: the loop of `move`, repeat { `mc.poll`; if FSM.MC = MC_RUN then `tick 1` } until
FSM.MC = MC_DONE, begun in s, performs ops and ends in t. -/
inductive PolledToDone : State → List Instr → State → Prop where
  | last {s t : State} : exec .mcPoll s = .next t → t.fsm.mc = .done → PolledToDone s [.mcPoll] t
  | running {s t u : State} {ops : List Instr} : exec .mcPoll s = .next t → t.fsm.mc = .run →
      PolledToDone (tick 1 t).final ops u → PolledToDone s (.mcPoll :: (tick 1 t).ops ++ ops) u
  | notRunning {s t u : State} {ops : List Instr} : exec .mcPoll s = .next t → t.fsm.mc = .idle →
      PolledToDone t ops u → PolledToDone s (.mcPoll :: ops) u

/-! ## Fairness (R152) -/

/-- An infinite execution: every operation has its step. -/
def IsExecution (ops : Nat → Instr) (states : Nat → State) : Prop :=
  ∀ n, exec (ops n) (states n) = .next (states (n + 1))

/-- Weak fairness: if it stays enabled from some point on, the operation is performed at or after that point. -/
def WeaklyFair (enabled : State → Bool) (op : Instr) (ops : Nat → Instr) (states : Nat → State) : Prop :=
  ∀ n, (∀ m, n ≤ m → enabled (states m) = true) → ∃ m, n ≤ m ∧ ops m = op

/-- The operation by which the foreground polls a running move in a HOST_MODE (R152). -/
def pollingOperation : HostMode → Instr
  | .sequencer => .mclStep
  | .direct => .mcPoll

/-- A move is running. -/
def moveRunning (s : State) : Bool := s.fsm.mc == .run

end Sys2Proof.Machine
end

