-- ==== Sys2Proof/Certificates/Slice0/Obligations.lean ====
section
/-! DEFINITION. The statements for the provers, from the rules of spec/. Where one rests on a choice of the model, its
docstring names the log entry. -/

open Sys2Proof Sys2Proof.Machine

/-! ## Words, decoding and the step -/

/-- Words of R58 and of 95_test_vectors.md 2.1, written out from R50 to R53, decode to what they stand for or are illegal. -/
def Obligations.SpecWordsDecode : Prop :=
  decode 0x10000065#32 = .ok (.tpgConfig 101) ∧ decode 0x100000FF#32 = .ok (.tpgConfig 255) ∧
  decode 0x11000000#32 = .ok .tpgTick ∧ decode 0x20000000#32 = .ok .ctdEva ∧ decode 0x21000000#32 = .ok .ctdEvb ∧
  decode 0x30000000#32 = .ok (.csmEdge .low) ∧ decode 0x30010000#32 = .ok (.csmEdge .high) ∧
  decode 0x4001005A#32 = .ok (.mcStart .reverse 90) ∧ decode 0x4000FFFF#32 = .ok (.mcStart .forward 65535) ∧
  decode 0x41000000#32 = .ok .mcPoll ∧ decode 0x42000000#32 = .ok .mcAck ∧ decode 0x50000000#32 = .ok .mclStep ∧
  decode 0xF0000000#32 = .ok .sysReset ∧
  decode 0x10000100#32 = .reject (.reservedBitsSet 0x10#8) ∧ decode 0x11000001#32 = .reject (.reservedBitsSet 0x11#8) ∧
  decode 0x30000001#32 = .reject (.reservedBitsSet 0x30#8) ∧ decode 0x40020000#32 = .reject (.reservedBitsSet 0x40#8) ∧
  decode 0x00000000#32 = .reject (.unassignedOpcode 0x00#8) ∧ decode 0xFFFFFFFF#32 = .reject (.unassignedOpcode 0xFF#8) ∧
  decode 0x12000000#32 = .reject (.unassignedOpcode 0x12#8)

/-- Decoding the word of a well-formed operation gives it back, with every operand the formats of R51 admit. -/
def Obligations.DecodeOfEncodeIsTheInstruction : Prop :=
  ∀ i : Instr, i.wellFormed = true → decode (encode i) = .ok i

/-- A word that decodes spells a well-formed operation, and is that operation's only word (R52, R54: no bit is dropped). -/
def Obligations.DecodedWordIsItsEncoding : Prop :=
  ∀ (w : Word) (i : Instr), decode w = .ok i → i.wellFormed = true ∧ encode i = w

/-- R54, R52: a word spells an operation exactly when `w & mask = match` for the operation's row of R53, and the operands
are its fields: p = w[7:0], l = w[16], d = w[16], angle = w[15:0]. -/
def Obligations.WordSpellsOperationByMatchAndMask : Prop :=
  ∀ w : Word,
    (∀ p, decode w = .ok (.tpgConfig p) ↔ w &&& 0xFFFFFF00#32 = 0x10000000#32 ∧ p = w.toNat % 256) ∧
    (decode w = .ok .tpgTick ↔ w &&& 0xFFFFFFFF#32 = 0x11000000#32) ∧
    (decode w = .ok .ctdEva ↔ w &&& 0xFFFFFFFF#32 = 0x20000000#32) ∧
    (decode w = .ok .ctdEvb ↔ w &&& 0xFFFFFFFF#32 = 0x21000000#32) ∧
    (∀ l, decode w = .ok (.csmEdge l) ↔
      w &&& 0xFFFEFFFF#32 = 0x30000000#32 ∧ l = if w.toNat / 65536 % 2 = 0 then .low else .high) ∧
    (∀ d a, decode w = .ok (.mcStart d a) ↔
      w &&& 0xFFFE0000#32 = 0x40000000#32 ∧ (d = if w.toNat / 65536 % 2 = 0 then .forward else .reverse) ∧
        a = w.toNat % 65536) ∧
    (decode w = .ok .mcPoll ↔ w &&& 0xFFFFFFFF#32 = 0x41000000#32) ∧
    (decode w = .ok .mcAck ↔ w &&& 0xFFFFFFFF#32 = 0x42000000#32) ∧
    (decode w = .ok .mclStep ↔ w &&& 0xFFFFFFFF#32 = 0x50000000#32) ∧
    (decode w = .ok .sysReset ↔ w &&& 0xFFFFFFFF#32 = 0xF0000000#32)

/-- R55, R121: a word that meets none of the ten match/mask pairs sets ERR.ILL and changes nothing else. The word is
taken from the stream, the model's own field (log entry 1). -/
def Obligations.IllegalWordSetsOnlyErrIll : Prop :=
  ∀ (s : State) (w : Word) (rest : List Word), s.stream = w :: rest →
    (∀ row ∈ [(0xFFFFFF00#32, 0x10000000#32), (0xFFFFFFFF#32, 0x11000000#32), (0xFFFFFFFF#32, 0x20000000#32),
        (0xFFFFFFFF#32, 0x21000000#32), (0xFFFEFFFF#32, 0x30000000#32), (0xFFFE0000#32, 0x40000000#32),
        (0xFFFFFFFF#32, 0x41000000#32), (0xFFFFFFFF#32, 0x42000000#32), (0xFFFFFFFF#32, 0x50000000#32),
        (0xFFFFFFFF#32, 0xF0000000#32)], w &&& row.1 ≠ row.2) →
    step s = .next { s with stream := rest, err := { s.err with ill := true } }

/-- A step whose next word decodes to an operation is that operation, in the state with the word taken. -/
def Obligations.StepPerformsTheDecodedOperation : Prop :=
  ∀ (s : State) (w : Word) (rest : List Word) (i : Instr),
    s.stream = w :: rest → decode w = .ok i → step s = exec i { s with stream := rest }

/-- 20_memory.md R40, R41: a serialised trace is its words' bytes, least significant first; its length is a multiple of
4 or it is refused before the machine sees anything (the form of the refusal is log entry 17). -/
def Obligations.SerialisedTraceLoadsItsWords : Prop :=
  bytesOfWord 0x40000009#32 = [0x09#8, 0x00#8, 0x00#8, 0x40#8] ∧
  (∀ (ws : List Word) (s : State), loadTrace (ws.flatMap bytesOfWord) s = .next { s with stream := ws }) ∧
  (∀ (bytes : List Byte) (s : State), bytes.length % 4 ≠ 0 → loadTrace bytes s = .refused .malformedTrace) ∧
  (∀ (bytes : List Byte) (s : State), bytes.length % 4 = 0 → ∃ ws, ws.flatMap bytesOfWord = bytes ∧
    loadTrace bytes s = .next { s with stream := ws })

/-- The ten example lines of R58 assemble to the operations whose words it gives. So do variants of them R58 allows: a
mnemonic in upper case, a comment, a level as a number, an angle in hexadecimal. An operand out of range is an error. That a
line of a comment alone says nothing is the model's choice (log entry 14). -/
def Obligations.SpecLinesAssemble : Prop :=
  assembleLine "tpg.config 4".toList = .op (.tpgConfig 4) ∧ encode (.tpgConfig 4) = 0x10000004#32 ∧
  assembleLine "tpg.tick".toList = .op .tpgTick ∧ encode .tpgTick = 0x11000000#32 ∧
  assembleLine "ctd.eva".toList = .op .ctdEva ∧ encode .ctdEva = 0x20000000#32 ∧
  assembleLine "ctd.evb".toList = .op .ctdEvb ∧ encode .ctdEvb = 0x21000000#32 ∧
  assembleLine "csm.edge low".toList = .op (.csmEdge .low) ∧ encode (.csmEdge .low) = 0x30000000#32 ∧
  assembleLine "mc.start rev, 90".toList = .op (.mcStart .reverse 90) ∧
  encode (.mcStart .reverse 90) = 0x4001005A#32 ∧
  assembleLine "mc.poll".toList = .op .mcPoll ∧ encode .mcPoll = 0x41000000#32 ∧
  assembleLine "mc.ack".toList = .op .mcAck ∧ encode .mcAck = 0x42000000#32 ∧
  assembleLine "mcl.step".toList = .op .mclStep ∧ encode .mclStep = 0x50000000#32 ∧
  assembleLine "sys.reset".toList = .op .sysReset ∧ encode .sysReset = 0xF0000000#32 ∧
  assembleLine "TPG.TICK".toList = .op .tpgTick ∧ assembleLine "ctd.eva ; service A".toList = .op .ctdEva ∧
  assembleLine "csm.edge 1".toList = .op (.csmEdge .high) ∧ encode (.csmEdge .high) = 0x30010000#32 ∧
  assembleLine "mc.start rev, 0x5A".toList = .op (.mcStart .reverse 90) ∧
  assembleLine "tpg.config 256".toList = .error .outOfRange ∧
  assembleLine "mc.start fwd, 65536".toList = .error .outOfRange ∧ assembleLine "; x".toList = .blank

/-! ## Each operation's effect -/

/-- R64, R65: TPG.CONFIG sets OCRA to p, OCRB to p div 2 and CFGD, once; a second one sets ERR.PROTO alone. -/
def Obligations.TpgConfigSetsPeriodOnce : Prop :=
  ∀ (p : Nat) (s : State), p < 256 →
    (s.cfg = false → ∃ t, exec (.tpgConfig p) s = .next t ∧ t.ocra.toNat = p ∧ t.ocrb.toNat = p / 2 ∧
      t = { s with ocra := t.ocra, ocrb := t.ocrb, cfg := true }) ∧
    (s.cfg = true → exec (.tpgConfig p) s = .next { s with err := { s.err with proto := true } })

/-- R66, R67: TPG.TICK has its step exactly when TIF = 0b00; it clears the count on compare A, counts on otherwise, and
records a match only for an enabled channel. -/
def Obligations.TpgTickCountsAndRecordsMatches : Prop :=
  ∀ s : State,
    ((∃ t, exec .tpgTick s = .next t) ↔ s.tif = ⟨false, false⟩) ∧
    (s.tif = ⟨false, false⟩ → exec .tpgTick s = .next { s with
      tcnt := if s.tcnt = s.ocra then 0#8 else BitVec.ofNat 8 ((s.tcnt.toNat + 1) % 256)
      tif := ⟨decide (s.tcnt = s.ocra ∧ s.tie.iea = true), decide (s.tcnt = s.ocrb ∧ s.tie.ieb = true)⟩ })

/-- R77: CTD.EVA has its step exactly when PA = 1 and not hold (R80); it inverts COIL0 (Forward) or COIL1 (Reverse),
counts one step and clears PA. -/
def Obligations.CtdEvaServicesChannelA : Prop :=
  ∀ s : State,
    let held := s.fsm.mc = .run ∧ s.target.toNat + s.params.overshootMax ≤ s.stepcnt.toNat
    ((∃ t, exec .ctdEva s = .next t) ↔ s.tif.pa = true ∧ ¬ held) ∧
    (s.tif.pa = true → ¬ held → exec .ctdEva s = .next { s with
      port := match s.map with
        | .forward => { s.port with coil0 := !s.port.coil0 }
        | .reverse => { s.port with coil1 := !s.port.coil1 }
      stepcnt := BitVec.ofNat 8 ((s.stepcnt.toNat + 1) % 256)
      tif := { s.tif with pa := false } })

/-- R78: CTD.EVB has its step exactly when PB = 1, PA = 0 and not hold (R80); it inverts COIL1 (Forward) or COIL0
(Reverse), counts one step and clears PB. -/
def Obligations.CtdEvbServicesChannelB : Prop :=
  ∀ s : State,
    let held := s.fsm.mc = .run ∧ s.target.toNat + s.params.overshootMax ≤ s.stepcnt.toNat
    ((∃ t, exec .ctdEvb s = .next t) ↔ s.tif.pb = true ∧ s.tif.pa = false ∧ ¬ held) ∧
    (s.tif.pb = true → s.tif.pa = false → ¬ held → exec .ctdEvb s = .next { s with
      port := match s.map with
        | .forward => { s.port with coil1 := !s.port.coil1 }
        | .reverse => { s.port with coil0 := !s.port.coil0 }
      stepcnt := BitVec.ofNat 8 ((s.stepcnt.toNat + 1) % 256)
      tif := { s.tif with pb := false } })

/-- R84, R85: CSM.EDGE at an edge sets the pin and CRANK to the inverse of the level; at the level the pin already has it
changes nothing. -/
def Obligations.CsmEdgeSamplesInvertedLevel : Prop :=
  ∀ (l : Level) (s : State),
    (l ≠ s.pin → exec (.csmEdge l) s = .next { s with pin := l, csr := decide (l = .low) }) ∧
    (l = s.pin → exec (.csmEdge l) s = .next s)

/-- R91, R92: in Direct mode, configured and with no call in progress, MC.START begins the move of steps_of_angle(angle)
steps (R90), under either arithmetic; else the word sets ERR.PROTO alone. -/
def Obligations.McStartBeginsTheMove : Prop :=
  ∀ (d : Dir) (angle : Nat) (s : State),
    (s.params.hostMode = .direct → s.cfg = true → s.fsm.mc = .idle →
      ∃ t, exec (.mcStart d angle) s = .next t ∧
        (s.params.angleArith = .divFirst → MoveBegun s d (angle / 360 * 200) t) ∧
        (s.params.angleArith = .mulFirst → MoveBegun s d (angle * 200 / 360) t)) ∧
    (s.params.hostMode = .sequencer ∨ s.cfg = false ∨ s.fsm.mc ≠ .idle →
      exec (.mcStart d angle) s = .next { s with err := { s.err with proto := true } })

/-- R95: the word MC.POLL ends the wait when STEPCNT has reached TARGET, disabling both interrupts, and changes nothing
before; outside MC_RUN, or in Sequencer mode, it sets ERR.PROTO alone. -/
def Obligations.McPollEndsTheMoveAtTarget : Prop :=
  ∀ s : State,
    (s.params.hostMode = .direct → s.fsm.mc = .run → ∃ t, exec .mcPoll s = .next t ∧ MovePolled s t) ∧
    (s.params.hostMode = .sequencer ∨ s.fsm.mc ≠ .run →
      exec .mcPoll s = .next { s with err := { s.err with proto := true } })

/-- R96: the word MC.ACK takes MC_DONE to MC_IDLE and changes nothing else; outside MC_DONE, or in Sequencer mode, it sets
ERR.PROTO alone. -/
def Obligations.McAckTakesTheReturn : Prop :=
  ∀ s : State,
    (s.params.hostMode = .direct → s.fsm.mc = .done →
      exec .mcAck s = .next { s with fsm := { s.fsm with mc := .idle } }) ∧
    (s.params.hostMode = .sequencer ∨ s.fsm.mc ≠ .done →
      exec .mcAck s = .next { s with err := { s.err with proto := true } })

/-- R105: in Idle the sequencer goes to Opening, with the status line on, when CRANK = 1, and else changes nothing. -/
def Obligations.MclIdlePollsCrank : Prop :=
  ∀ s : State, s.params.hostMode = .sequencer → s.cfg = true → s.fsm.mcl = .idle →
    (s.csr = true → exec .mclStep s = .next { s with
      fsm := { s.fsm with mcl := .opening }, port := { s.port with status := true } }) ∧
    (s.csr = false → exec .mclStep s = .next s)

/-- R106: in Opening the sequencer starts the move of MOVE_ANGLE with OPEN_DIR, polls it, and at its return goes to Holding. -/
def Obligations.MclOpeningRunsTheOpenMove : Prop :=
  ∀ s : State, s.params.hostMode = .sequencer → s.cfg = true → s.fsm.mcl = .opening →
    (s.fsm.mc = .idle → ∃ t, exec .mclStep s = .next t ∧
      MoveBegun s s.params.openDir (stepsOfAngle s.params.angleArith s.params.moveAngle.val) t) ∧
    (s.fsm.mc = .run → ∃ t, exec .mclStep s = .next t ∧ MovePolled s t) ∧
    (s.fsm.mc = .done → exec .mclStep s = .next { s with fsm := ⟨.holding, .idle⟩ })

/-- R107: in Holding the sequencer goes to Closing when CRANK = 0, and else changes nothing. -/
def Obligations.MclHoldingPollsCrank : Prop :=
  ∀ s : State, s.params.hostMode = .sequencer → s.cfg = true → s.fsm.mcl = .holding →
    (s.csr = false → exec .mclStep s = .next { s with fsm := { s.fsm with mcl := .closing } }) ∧
    (s.csr = true → exec .mclStep s = .next s)

/-- R108: in Closing the sequencer starts the move of MOVE_ANGLE with the reversed assignment, polls it, and at its return
goes to Idle with the status line off. -/
def Obligations.MclClosingRunsTheReversedMove : Prop :=
  ∀ s : State, s.params.hostMode = .sequencer → s.cfg = true → s.fsm.mcl = .closing →
    (s.fsm.mc = .idle → ∃ t, exec .mclStep s = .next t ∧
      MoveBegun s s.params.openDir.flip (stepsOfAngle s.params.angleArith s.params.moveAngle.val) t) ∧
    (s.fsm.mc = .run → ∃ t, exec .mclStep s = .next t ∧ MovePolled s t) ∧
    (s.fsm.mc = .done → exec .mclStep s = .next { s with
      fsm := ⟨.idle, .idle⟩, port := { s.port with status := false } })

/-- R113, R114: SYS.RESET, in every state, clears every register but PIN; the schedule and the parameters, the model's own
fields, stay. -/
def Obligations.SysResetClearsAllButPin : Prop :=
  ∀ s : State, exec .sysReset s = .next
    { tcnt := 0#8, ocra := 0#8, ocrb := 0#8, tie := ⟨false, false⟩, tif := ⟨false, false⟩, stepcnt := 0#8,
      target := 0#8, map := .forward, port := ⟨false, false, false⟩, pin := s.pin, csr := false,
      fsm := ⟨.idle, .idle⟩, err := ⟨false, false, false⟩, cfg := false, stream := s.stream, params := s.params }

/-- R120: the words its table refuses set ERR.PROTO and change nothing else (R118); no other operation sets it, nor does
MCL.STEP through its internal calls (R104). -/
def Obligations.ProtoRaisedExactlyByTheTable : Prop :=
  ∀ (i : Instr) (s : State),
    (protoRefused s i → exec i s = .next { s with err := { s.err with proto := true } }) ∧
    (∀ t, ¬ protoRefused s i → exec i s = .next t → t.err.proto = true → s.err.proto = true)

/-! ## Which operations have a step -/

/-- Every operation of ENV, FG and RESET has its step in every state, and no operation is refused by the model; a TIMER or
IRQ operation that is not enabled stops (R9 outcome 2) with the fault that log entry 4 names for it. -/
def Obligations.OnlyTimerAndIrqCanLackAStep : Prop :=
  ∀ (i : Instr) (s : State),
    (i.agent = .env ∨ i.agent = .fg ∨ i.agent = .reset → ∃ t, exec i s = .next t) ∧
    (∀ r, exec i s ≠ .refused r) ∧
    (∀ f, exec i s = .fault f →
      (i = .tpgTick ∧ f = .tickNotEnabled) ∨ (i = .ctdEva ∧ f = .evaNotEnabled) ∨ (i = .ctdEvb ∧ f = .evbNotEnabled))

/-- R80: in the overshoot hold neither handler has a step, and the foreground's next poll ends the move, so the machine
does not deadlock. -/
def Obligations.HoldIsLiftedByThePoll : Prop :=
  ∀ s : State, Invariants s → s.fsm.mc = .run → s.target.toNat + s.params.overshootMax ≤ s.stepcnt.toNat →
    (∀ t, exec .ctdEva s ≠ .next t) ∧ (∀ t, exec .ctdEvb s ≠ .next t) ∧
    ∃ t, exec (pollingOperation s.params.hostMode) s = .next t ∧ t.fsm.mc = .done ∧ t.tie = ⟨false, false⟩ ∧
      t.tif = ⟨false, false⟩ ∧ t.err = s.err

/-! ## Observation and power-on -/

/-- R116, R15: RegRead(n) is the register numbered n, its fields at the bits of R15 and its unused bits 0, and 0x00 from
0x0E on. -/
def Obligations.RegReadIsTheRegisterMap : Prop :=
  ∀ s : State,
    regRead s 0x00#8 = s.tcnt ∧ regRead s 0x01#8 = s.ocra ∧ regRead s 0x02#8 = s.ocrb ∧
    (regRead s 0x03#8).toNat = s.tie.iea.toNat + 2 * s.tie.ieb.toNat ∧
    (regRead s 0x04#8).toNat = s.tif.pa.toNat + 2 * s.tif.pb.toNat ∧
    regRead s 0x05#8 = s.stepcnt ∧ regRead s 0x06#8 = s.target ∧
    (regRead s 0x07#8).toNat = (if s.map = .reverse then 1 else 0) ∧
    (regRead s 0x08#8).toNat = s.port.coil0.toNat + 2 * s.port.coil1.toNat + 4 * s.port.status.toNat ∧
    (regRead s 0x09#8).toNat = (if s.pin = .high then 1 else 0) ∧
    (regRead s 0x0A#8).toNat = s.csr.toNat ∧
    (regRead s 0x0B#8).toNat =
      (match s.fsm.mcl with | .idle => 0 | .opening => 1 | .holding => 2 | .closing => 3) +
      4 * (match s.fsm.mc with | .idle => 0 | .run => 1 | .done => 2) ∧
    (regRead s 0x0C#8).toNat = s.err.range.toNat + 2 * s.err.proto.toNat + 4 * s.err.ill.toNat ∧
    (regRead s 0x0D#8).toNat = s.cfg.toNat ∧
    ∀ n : Byte, 0x0E ≤ n.toNat → regRead s n = 0x00#8

/-- The fourteen bytes RegRead shows are all the machine's own state: two states that agree on them, with the same schedule
and parameters (log entries 1 and 2), are equal (R15, R36). -/
def Obligations.RegistersAreTheWholeState : Prop :=
  ∀ s t : State, (∀ n : Byte, regRead s n = regRead t n) → s.stream = t.stream → s.params = t.params → s = t

/-- R115: after power-on every register reads 0 but PIN, which reads CRANK_PIN_RESET. -/
def Obligations.PowerOnRegisters : Prop :=
  ∀ (p : Params) (n : Byte),
    regRead (State.powerOn p) n = if n = 0x09#8 ∧ p.crankPinReset = .high then 0x01#8 else 0x00#8

/-- R140: the power-on state is quiescent and not configured, and so is the machine until TPG.CONFIG. From every state with
R35's invariants and CFGD = 0 (the power-on state is one, and every step keeps the invariants) no operation enables or raises
anything, toggles a line or takes the machine out of CFGD = 0 but TPG.CONFIG; and an operation other than TPG.CONFIG,
CSM.EDGE, which changes the pin and CRANK alone, and SYS.RESET changes no register but ERR. -/
def Obligations.PowerOnIsQuiescentUntilConfigured : Prop :=
  (∀ p : Params, Quiescent (State.powerOn p) ∧ (State.powerOn p).cfg = false) ∧
  ∀ (i : Instr) (s t : State), Invariants s → s.cfg = false → exec i s = .next t →
    Quiescent s ∧ Quiescent t ∧ t.port = s.port ∧
    ((∃ q, i = .tpgConfig q) ∨ t.cfg = false) ∧
    ((∃ q, i = .tpgConfig q) ∨ (∃ l, i = .csmEdge l ∧ t = { s with pin := t.pin, csr := t.csr }) ∨
      i = .sysReset ∨ t = { s with err := t.err })

/-! ## Whole-machine rules -/

/-- R35 at power-on, with any words presented. -/
def Obligations.InvariantsHoldAtPowerOn : Prop :=
  ∀ (p : Params) (words : List Word), Invariants { State.powerOn p with stream := words }

/-- R35: every step of the machine keeps the invariants, from every state that has them. -/
def Obligations.InvariantsKeptByEveryStep : Prop :=
  ∀ s t : State, Invariants s → step s = .next t → Invariants t

/-- R34: an operation changes only the registers its table lists for it; MCL.STEP stands where the table has the motion
controller's operations "through MCL.STEP". ERR is changed by a refused operation: by the table of R120, or by a start out
of range. -/
def Obligations.RegistersWrittenOnlyByTheirOwners : Prop :=
  ∀ (i : Instr) (s t : State), exec i s = .next t →
    let starts := (∃ d a, i = .mcStart d a) ∨ i = .mclStep
    let polls := i = .mcPoll ∨ i = .mclStep
    let configures := ∃ p, i = .tpgConfig p
    let handles := i = .ctdEva ∨ i = .ctdEvb
    (t.tcnt ≠ s.tcnt → i = .tpgTick ∨ starts ∨ i = .sysReset) ∧
    (t.ocra ≠ s.ocra → configures ∨ i = .sysReset) ∧
    (t.ocrb ≠ s.ocrb → configures ∨ i = .sysReset) ∧
    (t.cfg ≠ s.cfg → configures ∨ i = .sysReset) ∧
    (t.tie ≠ s.tie → starts ∨ polls ∨ i = .sysReset) ∧
    (t.tif ≠ s.tif → i = .tpgTick ∨ handles ∨ starts ∨ polls ∨ i = .sysReset) ∧
    (t.stepcnt ≠ s.stepcnt → handles ∨ starts ∨ i = .sysReset) ∧
    (t.target ≠ s.target → starts ∨ i = .sysReset) ∧
    (t.map ≠ s.map → starts ∨ i = .sysReset) ∧
    (t.port.coil0 ≠ s.port.coil0 → handles ∨ i = .sysReset) ∧
    (t.port.coil1 ≠ s.port.coil1 → handles ∨ i = .sysReset) ∧
    (t.port.status ≠ s.port.status → i = .mclStep ∨ i = .sysReset) ∧
    (t.pin ≠ s.pin → ∃ l, i = .csmEdge l) ∧
    (t.csr ≠ s.csr → (∃ l, i = .csmEdge l) ∨ i = .sysReset) ∧
    (t.fsm.mcl ≠ s.fsm.mcl → i = .mclStep ∨ i = .sysReset) ∧
    (t.fsm.mc ≠ s.fsm.mc → starts ∨ polls ∨ i = .mcAck ∨ i = .sysReset) ∧
    (t.err ≠ s.err → protoRefused s i ∨ starts ∨ i = .sysReset)

/-- R132: what each agent's operations leave alone. -/
def Obligations.AgentsKeepToTheirState : Prop :=
  ∀ (i : Instr) (s t : State), exec i s = .next t →
    (i.agent = .env → t = { s with pin := t.pin, csr := t.csr }) ∧
    (i.agent = .timer → t = { s with tcnt := t.tcnt, tif := t.tif }) ∧
    (i.agent = .irq → t = { s with port := { s.port with coil0 := t.port.coil0, coil1 := t.port.coil1 },
                                   stepcnt := t.stepcnt, tif := t.tif }) ∧
    (i.agent = .fg → t.port.coil0 = s.port.coil0 ∧ t.port.coil1 = s.port.coil1 ∧ t.pin = s.pin ∧ t.csr = s.csr)

/-- No operation changes the schedule or the parameters, the model's own fields (log entries 1 and 2). -/
def Obligations.ScheduleAndParametersUntouched : Prop :=
  ∀ (i : Instr) (s t : State), exec i s = .next t → t.stream = s.stream ∧ t.params = s.params

/-- R122: a step clears no error bit, unless the word presented is SYS.RESET's. -/
def Obligations.ErrorBitsAreSticky : Prop :=
  ∀ (s t : State) (b : ErrBit), step s = .next t → s.stream.head? ≠ some 0xF0000000#32 →
    s.err.bit b = true → t.err.bit b = true

/-- R123: one step raises at most one error, and TPG.TICK, CTD.EVA, CTD.EVB, CSM.EDGE and SYS.RESET raise none. -/
def Obligations.AtMostOneErrorPerStep : Prop :=
  (∀ (s t : State) (b c : ErrBit), step s = .next t → s.err.bit b = false → t.err.bit b = true →
    s.err.bit c = false → t.err.bit c = true → b = c) ∧
  (∀ (i : Instr) (s t : State) (b : ErrBit), i.agent ≠ .fg → exec i s = .next t →
    t.err.bit b = true → s.err.bit b = true)

/-- R98: what ends a running move is a poll that finds STEPCNT at or above TARGET, and SYS.RESET; nothing else. CSM.EDGE
during a move changes the pin and CRANK alone. -/
def Obligations.NoOperationCancelsAMove : Prop :=
  (∀ (i : Instr) (s t : State), s.fsm.mc = .run → exec i s = .next t → t.fsm.mc ≠ .run →
    i = .sysReset ∨
    ((i = .mcPoll ∨ i = .mclStep) ∧ s.target.toNat ≤ s.stepcnt.toNat ∧ t.fsm.mc = .done)) ∧
  (∀ (l : Level) (s : State), s.fsm.mc = .run →
    ∃ t, exec (.csmEdge l) s = .next t ∧ t = { s with pin := t.pin, csr := t.csr })

/-- R86: an edge sets CRANK to the inverse of the pin, and every operation but SYS.RESET keeps the equality. -/
def Obligations.InversionLawHoldsFromTheFirstEdge : Prop :=
  (∀ (l : Level) (s : State), l ≠ s.pin →
    ∃ t, exec (.csmEdge l) s = .next t ∧ (t.csr = true ↔ t.pin = .low)) ∧
  (∀ (i : Instr) (s t : State), i ≠ .sysReset → (s.csr = true ↔ s.pin = .low) → exec i s = .next t →
    (t.csr = true ↔ t.pin = .low))

/-- R87: after a reset with the pin low, CRANK is 0 although the pin is low, and no operation but a rising edge changes
either. -/
def Obligations.CrankIsFalseAfterResetUntilAnEdge : Prop :=
  ∀ s : State, s.pin = .low →
    (∃ t, exec .sysReset s = .next t ∧ t.pin = .low ∧ t.csr = false) ∧
    (∀ (i : Instr) (t : State), s.csr = false → i ≠ .csmEdge .high → exec i s = .next t →
      t.pin = .low ∧ t.csr = false)

/-- R28: no operation reads ERR. In a state that differs in ERR alone it has the same outcome, but for ERR. -/
def Obligations.NoOperationReadsErr : Prop :=
  ∀ (i : Instr) (s : State) (e : Err),
    (∀ t, exec i s = .next t → ∃ e', exec i { s with err := e } = .next { t with err := e' }) ∧
    (∀ f, exec i s = .fault f → exec i { s with err := e } = .fault f)

/-- R88, R26: only MCL.STEP reads CRANK and only CSM.EDGE reads the pin. Every other operation has the same outcome in a
state that differs in them alone, but for them; CSM.EDGE with any CRANK, and MCL.STEP with any pin, likewise. -/
def Obligations.CrankReadOnlyByTheSequencer : Prop :=
  (∀ (i : Instr) (s : State) (l : Level) (c : Bool), i ≠ .mclStep → (∀ l', i ≠ .csmEdge l') →
    (∀ t, exec i s = .next t → ∃ c', exec i { s with pin := l, csr := c } = .next { t with pin := l, csr := c' }) ∧
    (∀ f, exec i s = .fault f → exec i { s with pin := l, csr := c } = .fault f)) ∧
  (∀ (l : Level) (s : State) (c : Bool), ∃ t, exec (.csmEdge l) s = .next t ∧
    exec (.csmEdge l) { s with csr := c } = .next { t with csr := if l = s.pin then c else t.csr }) ∧
  (∀ (s : State) (l : Level), ∃ t, exec .mclStep s = .next t ∧
    exec .mclStep { s with pin := l } = .next { t with pin := l })

/-- R22: outside MC_RUN no operation reads TARGET. -/
def Obligations.TargetUnreadOutsideAMove : Prop :=
  ∀ (i : Instr) (s : State) (v : Byte), s.fsm.mc ≠ .run →
    (∀ t, exec i s = .next t → ∃ v', exec i { s with target := v } = .next { t with target := v' }) ∧
    (∀ f, exec i s = .fault f → exec i { s with target := v } = .fault f)

/-- R127: a pin change and a compare handler may go in either order, with the same end state. -/
def Obligations.PinChangeCommutesWithHandlers : Prop :=
  ∀ (i : Instr) (l : Level) (s u : State), i = .ctdEva ∨ i = .ctdEvb →
    ((∃ t, exec i s = .next t ∧ exec (.csmEdge l) t = .next u) ↔
     (∃ t, exec (.csmEdge l) s = .next t ∧ exec i t = .next u))

/-- R103: FSM.MCL changes only by MCL.STEP, along Idle, Opening, Holding, Closing, Idle, each transition on its condition;
and by SYS.RESET. -/
def Obligations.SequencerFollowsItsFourStates : Prop :=
  ∀ (i : Instr) (s t : State), exec i s = .next t → t.fsm.mcl ≠ s.fsm.mcl → i ≠ .sysReset →
    i = .mclStep ∧
    ((s.fsm.mcl = .idle ∧ t.fsm.mcl = .opening ∧ s.csr = true) ∨
     (s.fsm.mcl = .opening ∧ t.fsm.mcl = .holding ∧ s.fsm.mc = .done) ∨
     (s.fsm.mcl = .holding ∧ t.fsm.mcl = .closing ∧ s.csr = false) ∨
     (s.fsm.mcl = .closing ∧ t.fsm.mcl = .idle ∧ s.fsm.mc = .done))

/-- R109: PORT.STATUS = 1 exactly when FSM.MCL ≠ Idle, kept by every operation and left by SYS.RESET. -/
def Obligations.StatusMirrorsTheCycle : Prop :=
  ∀ (i : Instr) (s t : State), (s.port.status = true ↔ s.fsm.mcl ≠ .idle) → exec i s = .next t →
    (t.port.status = true ↔ t.fsm.mcl ≠ .idle)

/-! ## Moves -/

/-- R46, R144, R94: whatever operation takes the machine into MC_RUN leaves STEPCNT and TCNT at 0, nothing pending, both
interrupts enabled and a target of 1 to TARGET_MAX, so the busy-wait is not already satisfied. -/
def Obligations.NewMoveStartsFromClearedCounters : Prop :=
  ∀ (i : Instr) (s t : State), exec i s = .next t → s.fsm.mc ≠ .run → t.fsm.mc = .run →
    JustArmed t ∧ t.tie = ⟨true, true⟩ ∧ 1 ≤ t.target.toNat ∧ t.target.toNat ≤ 255 - t.params.overshootMax

/-- R90, R93, R145: the angles that give no step, and those in range, for each arithmetic and OVERSHOOT_MAX in {0, 1}. For
MulFirst and OVERSHOOT_MAX = 0 the last angle in range is 460 by R90 and R91, where R93's table has 459 (log entry 18). -/
def Obligations.AnglesThatMoveAndAreInRange : Prop :=
  ∀ a : Nat,
    (stepsOfAngle .divFirst a = 0 ↔ a < 360) ∧ (stepsOfAngle .mulFirst a = 0 ↔ a ≤ 1) ∧
    ∀ p : Params,
      (p.overshootMax ≤ 1 → (stepsOfAngle .divFirst a ≤ p.targetMax ↔ a ≤ 719)) ∧
      (p.overshootMax = 1 → (stepsOfAngle .mulFirst a ≤ p.targetMax ↔ a ≤ 458)) ∧
      (p.overshootMax = 0 → (stepsOfAngle .mulFirst a ≤ p.targetMax ↔ a ≤ 460))

/-- R97: the operation that ends a move leaves it quiescent, with TARGET ≤ STEPCNT ≤ TARGET + OVERSHOOT_MAX and the lines
as the last event left them. -/
def Obligations.MoveEndsWithinOvershootOfTarget : Prop :=
  ∀ (i : Instr) (s t : State), Invariants s → s.fsm.mc = .run → exec i s = .next t → t.fsm.mc = .done →
    t = { s with tie := ⟨false, false⟩, tif := ⟨false, false⟩, fsm := { s.fsm with mc := .done } } ∧
    t.target.toNat ≤ t.stepcnt.toNat ∧ t.stepcnt.toNat ≤ t.target.toNat + t.params.overshootMax

/-- R80, 93 U5: with OVERSHOOT_MAX ≥ 1 both ends of a move are executions: with the request pending at STEPCNT = TARGET,
the poll may come first, or the handler and then the poll. -/
def Obligations.BothFinalCountsAreAdmitted : Prop :=
  ∀ s : State, Invariants s → s.params.hostMode = .direct → 1 ≤ s.params.overshootMax → s.fsm.mc = .run →
    s.stepcnt = s.target → s.tif = ⟨false, true⟩ →
    (∃ u, exec .mcPoll s = .next u ∧ u.fsm.mc = .done ∧ u.stepcnt.toNat = s.target.toNat) ∧
    (∃ v u, exec .ctdEvb s = .next v ∧ exec .mcPoll v = .next u ∧ u.fsm.mc = .done ∧
      u.stepcnt.toNat = s.target.toNat + 1)

/-- R81: while the compare interrupts are enabled STEPCNT never decreases, and an operation adds at most one step. -/
def Obligations.StepCounterIsMonotoneInAMove : Prop :=
  ∀ (i : Instr) (s t : State), Invariants s → s.tie ≠ ⟨false, false⟩ → i ≠ .sysReset → exec i s = .next t →
    s.stepcnt.toNat ≤ t.stepcnt.toNat ∧ t.stepcnt.toNat ≤ s.stepcnt.toNat + 1

/-- R81, R99: in a move under every schedule, STEPCNT is the number of events serviced, the two channels share them as
R81's table says, and each line is at its level before the move, inverted once per event of its channel. -/
def Obligations.ChannelsAlternateInEveryMove : Prop :=
  ∀ (s₀ s : State) (a b : Nat), Invariants s₀ → JustArmed s₀ → MoveRun s₀ a b s →
    s.stepcnt.toNat = a + b ∧
    a = channelEvents s₀.ocra.toNat (a + b) .a ∧ b = channelEvents s₀.ocra.toNat (a + b) .b ∧
    ∀ l : Line, s.port.line l =
      afterToggles (s₀.port.line l) (lineToggles s₀.ocra.toNat (a + b) s₀.map l)

/-- R100: after two moves with opposite assignments both lines are back at their levels exactly when the two counts sum to
a multiple of 4. -/
def Obligations.OppositeMovesRestoreLinesIffSumIsMultipleOfFour : Prop :=
  ∀ (s₀ s₁ s₂ s₃ : State) (a b c d : Nat), Invariants s₀ → JustArmed s₀ → MoveRun s₀ a b s₁ →
    Invariants s₂ → JustArmed s₂ → MoveRun s₂ c d s₃ →
    s₂.ocra = s₀.ocra → s₂.map = s₀.map.flip → s₂.port.coil0 = s₁.port.coil0 → s₂.port.coil1 = s₁.port.coil1 →
    ((s₃.port.coil0 = s₀.port.coil0 ∧ s₃.port.coil1 = s₀.port.coil1) ↔
      (s₁.stepcnt.toNat + s₃.stepcnt.toNat) % 4 = 0)

/-- R68: in the eager IRQ schedule of R59, after n ticks of a move the count is n mod (P + 1) and E(n) events have been
serviced, as long as the hold allows them; the next tick matches A on multiples of P + 1 and B on P div 2 + 1 modulo P + 1. -/
def Obligations.EventsFallOnTheTicksOfTheLaw : Prop :=
  ∀ (s : State) (n : Nat), Invariants s → JustArmed s →
    let P := s.ocra.toNat
    let t := (tick n s).final
    eventCount P n ≤ s.target.toNat + s.params.overshootMax →
    t = { s with tcnt := t.tcnt, stepcnt := t.stepcnt, port := t.port } ∧
    t.tcnt.toNat = n % (P + 1) ∧ t.stepcnt.toNat = eventCount P n ∧
    ∃ u, exec .tpgTick t = .next u ∧
      (u.tif.pa = true ↔ (n + 1) % (P + 1) = 0) ∧ (u.tif.pb = true ↔ (n + 1) % (P + 1) = (P / 2 + 1) % (P + 1))

/-- R102, R154: a move with target t has serviced its target after T(t) ticks of the eager schedule, exactly it for P ≥ 1,
and the foreground's next poll ends it. -/
def Obligations.EagerMoveEndsAfterTheTargetTick : Prop :=
  ∀ s : State, Invariants s → JustArmed s →
    let P := s.ocra.toNat
    let t := (tick (eventTick P s.target.toNat) s).final
    t.fsm.mc = .run ∧ s.target.toNat ≤ t.stepcnt.toNat ∧ (1 ≤ P → t.stepcnt = s.target) ∧
    ∃ u, exec (pollingOperation s.params.hostMode) t = .next u ∧ u.fsm.mc = .done

/-- R102: under every schedule without a reset, a running move ends, if TIMER and the polling foreground are weakly fair.
That the two handlers are weakly fair as well is a premise here, which R152 does without (log entry 15). -/
def Obligations.FairScheduleEndsEveryMove : Prop :=
  ∀ (ops : Nat → Instr) (states : Nat → State), IsExecution ops states → (∀ n, ops n ≠ .sysReset) →
    WeaklyFair tickEnabled .tpgTick ops states →
    WeaklyFair evaEnabled .ctdEva ops states → WeaklyFair evbEnabled .ctdEvb ops states →
    WeaklyFair moveRunning (pollingOperation (states 0).params.hostMode) ops states →
    ∀ n, Invariants (states n) → (states n).fsm.mc = .run → ∃ m, n < m ∧ (states m).fsm.mc = .done

/-! ## Outside a move -/

/-- R158: in a resting state no line toggles and no step is counted, whatever operation but SYS.RESET
comes, and of TIMER and IRQ only TPG.TICK has a step, which changes TCNT alone. -/
def Obligations.RestingStateTogglesNothing : Prop :=
  ∀ (i : Instr) (s t : State), Resting s → exec i s = .next t →
    (i ≠ .sysReset → t.port.coil0 = s.port.coil0 ∧ t.port.coil1 = s.port.coil1 ∧
      (t.stepcnt = s.stepcnt ∨ t.stepcnt = 0#8)) ∧
    (i.agent = .timer ∨ i.agent = .irq → i = .tpgTick ∧ t = { s with tcnt := t.tcnt })

/-- R69: while nothing is enabled or pending the count runs through 0 to P with period P + 1 and nothing else changes. -/
def Obligations.DisabledTimerCyclesThroughThePeriod : Prop :=
  ∀ (s : State) (n : Nat), CountInPeriod s → Quiescent s →
    let t := (tick n s).final
    t = { s with tcnt := t.tcnt } ∧ t.tcnt.toNat = (s.tcnt.toNat + n) % (s.ocra.toNat + 1)

/-- R112: a cycle of the sequencer whose moves have no step changes FSM.MCL, PORT.STATUS and MAP.DIR on its way, ends in
Idle and toggles no line. -/
def Obligations.ZeroStepCycleTogglesNothing : Prop :=
  ∀ s : State, Invariants s → s.params.hostMode = .sequencer → s.cfg = true → s.fsm.mcl = .idle → s.pin = .low → s.csr = true →
    stepsOfAngle s.params.angleArith s.params.moveAngle.val = 0 →
    perform [.mclStep, .mclStep, .mclStep, .csmEdge .high, .mclStep, .mclStep, .mclStep] s = .next { s with
      map := s.params.openDir.flip, stepcnt := 0#8, target := 0#8, pin := .high, csr := false }

/-- R59: the pseudo-operations perform what its table lists, and add no behaviour: performing the operations a
pseudo-operation expands to, in turn, is an execution that ends in the state it answers. `move` performs MC.START, the loop
and MC.ACK wherever the loop ends within the polls it is given; that bound is the model's own (log entry 13). -/
def Obligations.PseudoOperationsAddNoBehaviour : Prop :=
  (∀ s : State, perform (service s).ops s = .next (service s).final) ∧
  (∀ (n : Nat) (s : State), perform (tick n s).ops s = .next (tick n s).final) ∧
  (∀ (n : Nat) (s : State), perform (run n s).ops s = .next (run n s).final) ∧
  (∀ s : State, perform (crankOn s).ops s = .next (crankOn s).final ∧
    perform (crankOff s).ops s = .next (crankOff s).final) ∧
  (∀ (fuel : Nat) (d : Dir) (angle : Nat) (s : State),
    perform (move fuel d angle s).ops s = .next (move fuel d angle s).final) ∧
  (∀ s : State, (crankOn s).ops = [.csmEdge .low] ∧ (crankOff s).ops = [.csmEdge .high]) ∧
  (∀ s : State, ∃ a t b, Tried .ctdEva s a t ∧ Tried .ctdEvb t b (service s).final ∧ (service s).ops = a ++ b) ∧
  (∀ s : State, tick 0 s = ⟨[], s⟩ ∧ run 0 s = ⟨[], s⟩) ∧
  (∀ (n : Nat) (s t : State), exec .tpgTick s = .next t →
    let e := tick n (service t).final
    tick (n + 1) s = ⟨.tpgTick :: (service t).ops ++ e.ops, e.final⟩) ∧
  (∀ (n : Nat) (s : State), (∀ t, exec .tpgTick s ≠ .next t) → tick n s = ⟨[], s⟩) ∧
  (∀ (n : Nat) (s : State), (tick n s).ops.count .tpgTick = n ∨
    (tick n s).ops.count .tpgTick < n ∧ ∀ t, exec .tpgTick (tick n s).final ≠ .next t) ∧
  (∀ (n : Nat) (s : State), (run n s).ops.count .mclStep = n) ∧
  (∀ (n : Nat) (s t : State), exec .mclStep s = .next t →
    let e := run n (tick 1 t).final
    run (n + 1) s = ⟨.mclStep :: (tick 1 t).ops ++ e.ops, e.final⟩) ∧
  (∀ (fuel : Nat) (d : Dir) (angle : Nat) (s t u v : State) (ops : List Instr),
    exec (.mcStart d angle) s = .next t → PolledToDone t ops u → exec .mcAck u = .next v →
    ops.count .mcPoll ≤ fuel → move fuel d angle s = ⟨.mcStart d angle :: ops ++ [.mcAck], v⟩)

/-- R59, R68, R154: `move d, angle`, the eager FG schedule, of a target t in range takes T(t) ticks, a poll between every
two, and ends resumed, quiescent and without an error, with overshoot 0 for P ≥ 1. A move that returns at once is polled
once nevertheless, which sets ERR.PROTO: the model's reading of R59's loop (log entry 13). -/
def Obligations.EagerMoveRunsToItsTarget : Prop :=
  ∀ (fuel : Nat) (d : Dir) (angle : Nat) (s : State), Invariants s →
    s.params.hostMode = .direct → s.cfg = true → s.fsm.mc = .idle →
    let P := s.ocra.toNat
    let steps := stepsOfAngle s.params.angleArith angle
    let e := move fuel d angle s
    (1 ≤ steps → steps ≤ s.params.targetMax → eventTick P steps < fuel →
      e.ops.count .tpgTick = eventTick P steps ∧ e.ops.count .mcPoll = eventTick P steps + 1 ∧
      e.final.fsm.mc = .idle ∧ Quiescent e.final ∧ e.final.err = s.err ∧ e.final.map = d ∧
      e.final.target.toNat = steps ∧ steps ≤ e.final.stepcnt.toNat ∧ (1 ≤ P → e.final.stepcnt = e.final.target)) ∧
    (steps = 0 ∨ s.params.targetMax < steps → 1 ≤ fuel →
      e.ops = [.mcStart d angle, .mcPoll, .mcAck] ∧ e.final.fsm.mc = .idle ∧ e.final.err.proto = true ∧
      e.final.stepcnt = 0#8 ∧ e.final.port = s.port)
end

