-- ==== Sys2Proof/Laws/Decode.lean ====
section
/-! SUPPORT. The fields of a packed word, and the opcode map's rows being pairwise disjoint (30_encoding.md R53). -/

namespace Sys2Proof

theorem opcodeField_packWord (op : BitVec 8) (d : BitVec 1) (imm : BitVec 16) : opcodeField (packWord op d imm) = op := by
  unfold opcodeField packWord
  ext i hi
  have hd : d.getLsbD (24 + i - 16) = false := BitVec.getLsbD_of_ge _ _ (by omega)
  have hm : imm.getLsbD (24 + i) = false := BitVec.getLsbD_of_ge _ _ (by omega)
  simp [BitVec.getElem_extractLsb', hd, hm, show 24 + i < 32 by omega, show ¬ 24 + i < 16 by omega,
    BitVec.getLsbD_eq_getElem hi]

theorem rsvField_packWord (op : BitVec 8) (d : BitVec 1) (imm : BitVec 16) :
    (packWord op d imm).extractLsb' 17 7 = 0#7 := by
  unfold packWord
  ext i hi
  have hd : d.getLsbD (17 + i - 16) = false := BitVec.getLsbD_of_ge _ _ (by omega)
  have hm : imm.getLsbD (17 + i) = false := BitVec.getLsbD_of_ge _ _ (by omega)
  simp [BitVec.getElem_extractLsb', hd, hm, show 17 + i < 24 by omega]

theorem bitField_packWord (op : BitVec 8) (d : BitVec 1) (imm : BitVec 16) : bitField (packWord op d imm) = d := by
  unfold bitField packWord
  ext i hi
  obtain rfl : i = 0 := by omega
  simp [BitVec.getElem_extractLsb', BitVec.getLsbD_eq_getElem]

theorem angleField_packWord (op : BitVec 8) (d : BitVec 1) (imm : BitVec 16) : angleField (packWord op d imm) = imm := by
  unfold angleField packWord
  ext i hi
  simp [BitVec.getElem_extractLsb', hi, show i < 24 by omega, show i < 32 by omega]

/-- "The ten match/mask pairs are pairwise disjoint: no word satisfies two rows" (R53). -/
theorem opcodeTable_pairwise_opcode : opcodeTable.Pairwise (fun a b => a.opcode ≠ b.opcode) := by decide

/-- Every row's mask covers the opcode and its pattern holds it, so disjoint opcodes make disjoint rows. -/
theorem opcodeTable_opcode_of_mask : opcodeTable.Forall fun r =>
    r.mask &&& 0xFF000000#32 = 0xFF000000#32 ∧ opcodeField r.pattern = r.opcode := by decide

end Sys2Proof
end

