-- ==== Sys2Proof/Laws/State.lean ====
section
/-! SUPPORT. One lemma per field per named update of the state (Machine/Ops.lean): what the update makes of the field. -/

namespace Sys2Proof.Machine

section
variable (s : State)

/-! tpgClear -/

@[simp] theorem tpgClear_tcnt : (tpgClear s).tcnt = 0#8 := rfl
@[simp] theorem tpgClear_ocra : (tpgClear s).ocra = s.ocra := rfl
@[simp] theorem tpgClear_ocrb : (tpgClear s).ocrb = s.ocrb := rfl
@[simp] theorem tpgClear_tie : (tpgClear s).tie = s.tie := rfl
@[simp] theorem tpgClear_tif : (tpgClear s).tif = s.tif := rfl
@[simp] theorem tpgClear_stepcnt : (tpgClear s).stepcnt = s.stepcnt := rfl
@[simp] theorem tpgClear_target : (tpgClear s).target = s.target := rfl
@[simp] theorem tpgClear_map : (tpgClear s).map = s.map := rfl
@[simp] theorem tpgClear_port : (tpgClear s).port = s.port := rfl
@[simp] theorem tpgClear_pin : (tpgClear s).pin = s.pin := rfl
@[simp] theorem tpgClear_csr : (tpgClear s).csr = s.csr := rfl
@[simp] theorem tpgClear_fsm : (tpgClear s).fsm = s.fsm := rfl
@[simp] theorem tpgClear_err : (tpgClear s).err = s.err := rfl
@[simp] theorem tpgClear_cfg : (tpgClear s).cfg = s.cfg := rfl
@[simp] theorem tpgClear_stream : (tpgClear s).stream = s.stream := rfl
@[simp] theorem tpgClear_params : (tpgClear s).params = s.params := rfl

/-! tpgIrqEnable -/

@[simp] theorem tpgIrqEnable_tcnt : (tpgIrqEnable s).tcnt = s.tcnt := rfl
@[simp] theorem tpgIrqEnable_ocra : (tpgIrqEnable s).ocra = s.ocra := rfl
@[simp] theorem tpgIrqEnable_ocrb : (tpgIrqEnable s).ocrb = s.ocrb := rfl
@[simp] theorem tpgIrqEnable_tie : (tpgIrqEnable s).tie = ⟨true, true⟩ := rfl
@[simp] theorem tpgIrqEnable_tif : (tpgIrqEnable s).tif = ⟨false, false⟩ := rfl
@[simp] theorem tpgIrqEnable_stepcnt : (tpgIrqEnable s).stepcnt = s.stepcnt := rfl
@[simp] theorem tpgIrqEnable_target : (tpgIrqEnable s).target = s.target := rfl
@[simp] theorem tpgIrqEnable_map : (tpgIrqEnable s).map = s.map := rfl
@[simp] theorem tpgIrqEnable_port : (tpgIrqEnable s).port = s.port := rfl
@[simp] theorem tpgIrqEnable_pin : (tpgIrqEnable s).pin = s.pin := rfl
@[simp] theorem tpgIrqEnable_csr : (tpgIrqEnable s).csr = s.csr := rfl
@[simp] theorem tpgIrqEnable_fsm : (tpgIrqEnable s).fsm = s.fsm := rfl
@[simp] theorem tpgIrqEnable_err : (tpgIrqEnable s).err = s.err := rfl
@[simp] theorem tpgIrqEnable_cfg : (tpgIrqEnable s).cfg = s.cfg := rfl
@[simp] theorem tpgIrqEnable_stream : (tpgIrqEnable s).stream = s.stream := rfl
@[simp] theorem tpgIrqEnable_params : (tpgIrqEnable s).params = s.params := rfl

/-! tpgIrqDisable -/

@[simp] theorem tpgIrqDisable_tcnt : (tpgIrqDisable s).tcnt = s.tcnt := rfl
@[simp] theorem tpgIrqDisable_ocra : (tpgIrqDisable s).ocra = s.ocra := rfl
@[simp] theorem tpgIrqDisable_ocrb : (tpgIrqDisable s).ocrb = s.ocrb := rfl
@[simp] theorem tpgIrqDisable_tie : (tpgIrqDisable s).tie = ⟨false, false⟩ := rfl
@[simp] theorem tpgIrqDisable_tif : (tpgIrqDisable s).tif = ⟨false, false⟩ := rfl
@[simp] theorem tpgIrqDisable_stepcnt : (tpgIrqDisable s).stepcnt = s.stepcnt := rfl
@[simp] theorem tpgIrqDisable_target : (tpgIrqDisable s).target = s.target := rfl
@[simp] theorem tpgIrqDisable_map : (tpgIrqDisable s).map = s.map := rfl
@[simp] theorem tpgIrqDisable_port : (tpgIrqDisable s).port = s.port := rfl
@[simp] theorem tpgIrqDisable_pin : (tpgIrqDisable s).pin = s.pin := rfl
@[simp] theorem tpgIrqDisable_csr : (tpgIrqDisable s).csr = s.csr := rfl
@[simp] theorem tpgIrqDisable_fsm : (tpgIrqDisable s).fsm = s.fsm := rfl
@[simp] theorem tpgIrqDisable_err : (tpgIrqDisable s).err = s.err := rfl
@[simp] theorem tpgIrqDisable_cfg : (tpgIrqDisable s).cfg = s.cfg := rfl
@[simp] theorem tpgIrqDisable_stream : (tpgIrqDisable s).stream = s.stream := rfl
@[simp] theorem tpgIrqDisable_params : (tpgIrqDisable s).params = s.params := rfl

/-! ctdInstall -/

@[simp] theorem ctdInstall_tcnt (d : Dir) : (ctdInstall d s).tcnt = s.tcnt := rfl
@[simp] theorem ctdInstall_ocra (d : Dir) : (ctdInstall d s).ocra = s.ocra := rfl
@[simp] theorem ctdInstall_ocrb (d : Dir) : (ctdInstall d s).ocrb = s.ocrb := rfl
@[simp] theorem ctdInstall_tie (d : Dir) : (ctdInstall d s).tie = s.tie := rfl
@[simp] theorem ctdInstall_tif (d : Dir) : (ctdInstall d s).tif = s.tif := rfl
@[simp] theorem ctdInstall_stepcnt (d : Dir) : (ctdInstall d s).stepcnt = s.stepcnt := rfl
@[simp] theorem ctdInstall_target (d : Dir) : (ctdInstall d s).target = s.target := rfl
@[simp] theorem ctdInstall_map (d : Dir) : (ctdInstall d s).map = d := rfl
@[simp] theorem ctdInstall_port (d : Dir) : (ctdInstall d s).port = s.port := rfl
@[simp] theorem ctdInstall_pin (d : Dir) : (ctdInstall d s).pin = s.pin := rfl
@[simp] theorem ctdInstall_csr (d : Dir) : (ctdInstall d s).csr = s.csr := rfl
@[simp] theorem ctdInstall_fsm (d : Dir) : (ctdInstall d s).fsm = s.fsm := rfl
@[simp] theorem ctdInstall_err (d : Dir) : (ctdInstall d s).err = s.err := rfl
@[simp] theorem ctdInstall_cfg (d : Dir) : (ctdInstall d s).cfg = s.cfg := rfl
@[simp] theorem ctdInstall_stream (d : Dir) : (ctdInstall d s).stream = s.stream := rfl
@[simp] theorem ctdInstall_params (d : Dir) : (ctdInstall d s).params = s.params := rfl

/-! setPeriod -/

@[simp] theorem setPeriod_tcnt (p : Nat) : (setPeriod p s).tcnt = s.tcnt := rfl
@[simp] theorem setPeriod_ocra (p : Nat) : (setPeriod p s).ocra = compareA p := rfl
@[simp] theorem setPeriod_ocrb (p : Nat) : (setPeriod p s).ocrb = compareB p := rfl
@[simp] theorem setPeriod_tie (p : Nat) : (setPeriod p s).tie = s.tie := rfl
@[simp] theorem setPeriod_tif (p : Nat) : (setPeriod p s).tif = s.tif := rfl
@[simp] theorem setPeriod_stepcnt (p : Nat) : (setPeriod p s).stepcnt = s.stepcnt := rfl
@[simp] theorem setPeriod_target (p : Nat) : (setPeriod p s).target = s.target := rfl
@[simp] theorem setPeriod_map (p : Nat) : (setPeriod p s).map = s.map := rfl
@[simp] theorem setPeriod_port (p : Nat) : (setPeriod p s).port = s.port := rfl
@[simp] theorem setPeriod_pin (p : Nat) : (setPeriod p s).pin = s.pin := rfl
@[simp] theorem setPeriod_csr (p : Nat) : (setPeriod p s).csr = s.csr := rfl
@[simp] theorem setPeriod_fsm (p : Nat) : (setPeriod p s).fsm = s.fsm := rfl
@[simp] theorem setPeriod_err (p : Nat) : (setPeriod p s).err = s.err := rfl
@[simp] theorem setPeriod_cfg (p : Nat) : (setPeriod p s).cfg = true := rfl
@[simp] theorem setPeriod_stream (p : Nat) : (setPeriod p s).stream = s.stream := rfl
@[simp] theorem setPeriod_params (p : Nat) : (setPeriod p s).params = s.params := rfl

/-! countTick -/

@[simp] theorem countTick_tcnt : (countTick s).tcnt = nextCount s := rfl
@[simp] theorem countTick_ocra : (countTick s).ocra = s.ocra := rfl
@[simp] theorem countTick_ocrb : (countTick s).ocrb = s.ocrb := rfl
@[simp] theorem countTick_tie : (countTick s).tie = s.tie := rfl
@[simp] theorem countTick_tif : (countTick s).tif = matchPending s := rfl
@[simp] theorem countTick_stepcnt : (countTick s).stepcnt = s.stepcnt := rfl
@[simp] theorem countTick_target : (countTick s).target = s.target := rfl
@[simp] theorem countTick_map : (countTick s).map = s.map := rfl
@[simp] theorem countTick_port : (countTick s).port = s.port := rfl
@[simp] theorem countTick_pin : (countTick s).pin = s.pin := rfl
@[simp] theorem countTick_csr : (countTick s).csr = s.csr := rfl
@[simp] theorem countTick_fsm : (countTick s).fsm = s.fsm := rfl
@[simp] theorem countTick_err : (countTick s).err = s.err := rfl
@[simp] theorem countTick_cfg : (countTick s).cfg = s.cfg := rfl
@[simp] theorem countTick_stream : (countTick s).stream = s.stream := rfl
@[simp] theorem countTick_params : (countTick s).params = s.params := rfl

/-! serviceEvent -/

@[simp] theorem serviceEvent_tcnt (ch : Channel) : (serviceEvent ch s).tcnt = s.tcnt := rfl
@[simp] theorem serviceEvent_ocra (ch : Channel) : (serviceEvent ch s).ocra = s.ocra := rfl
@[simp] theorem serviceEvent_ocrb (ch : Channel) : (serviceEvent ch s).ocrb = s.ocrb := rfl
@[simp] theorem serviceEvent_tie (ch : Channel) : (serviceEvent ch s).tie = s.tie := rfl
@[simp] theorem serviceEvent_tif (ch : Channel) : (serviceEvent ch s).tif = s.tif.clear ch := rfl
@[simp] theorem serviceEvent_stepcnt (ch : Channel) : (serviceEvent ch s).stepcnt = s.stepcnt + 1#8 := rfl
@[simp] theorem serviceEvent_target (ch : Channel) : (serviceEvent ch s).target = s.target := rfl
@[simp] theorem serviceEvent_map (ch : Channel) : (serviceEvent ch s).map = s.map := rfl
@[simp] theorem serviceEvent_port (ch : Channel) : (serviceEvent ch s).port = s.port.toggle (lineOf ch s.map) := rfl
@[simp] theorem serviceEvent_pin (ch : Channel) : (serviceEvent ch s).pin = s.pin := rfl
@[simp] theorem serviceEvent_csr (ch : Channel) : (serviceEvent ch s).csr = s.csr := rfl
@[simp] theorem serviceEvent_fsm (ch : Channel) : (serviceEvent ch s).fsm = s.fsm := rfl
@[simp] theorem serviceEvent_err (ch : Channel) : (serviceEvent ch s).err = s.err := rfl
@[simp] theorem serviceEvent_cfg (ch : Channel) : (serviceEvent ch s).cfg = s.cfg := rfl
@[simp] theorem serviceEvent_stream (ch : Channel) : (serviceEvent ch s).stream = s.stream := rfl
@[simp] theorem serviceEvent_params (ch : Channel) : (serviceEvent ch s).params = s.params := rfl

/-! samplePin -/

@[simp] theorem samplePin_tcnt (l : Level) : (samplePin l s).tcnt = s.tcnt := rfl
@[simp] theorem samplePin_ocra (l : Level) : (samplePin l s).ocra = s.ocra := rfl
@[simp] theorem samplePin_ocrb (l : Level) : (samplePin l s).ocrb = s.ocrb := rfl
@[simp] theorem samplePin_tie (l : Level) : (samplePin l s).tie = s.tie := rfl
@[simp] theorem samplePin_tif (l : Level) : (samplePin l s).tif = s.tif := rfl
@[simp] theorem samplePin_stepcnt (l : Level) : (samplePin l s).stepcnt = s.stepcnt := rfl
@[simp] theorem samplePin_target (l : Level) : (samplePin l s).target = s.target := rfl
@[simp] theorem samplePin_map (l : Level) : (samplePin l s).map = s.map := rfl
@[simp] theorem samplePin_port (l : Level) : (samplePin l s).port = s.port := rfl
@[simp] theorem samplePin_pin (l : Level) : (samplePin l s).pin = l := rfl
@[simp] theorem samplePin_csr (l : Level) : (samplePin l s).csr = crankOfLevel l := rfl
@[simp] theorem samplePin_fsm (l : Level) : (samplePin l s).fsm = s.fsm := rfl
@[simp] theorem samplePin_err (l : Level) : (samplePin l s).err = s.err := rfl
@[simp] theorem samplePin_cfg (l : Level) : (samplePin l s).cfg = s.cfg := rfl
@[simp] theorem samplePin_stream (l : Level) : (samplePin l s).stream = s.stream := rfl
@[simp] theorem samplePin_params (l : Level) : (samplePin l s).params = s.params := rfl

/-! clearSteps -/

@[simp] theorem clearSteps_tcnt : (clearSteps s).tcnt = s.tcnt := rfl
@[simp] theorem clearSteps_ocra : (clearSteps s).ocra = s.ocra := rfl
@[simp] theorem clearSteps_ocrb : (clearSteps s).ocrb = s.ocrb := rfl
@[simp] theorem clearSteps_tie : (clearSteps s).tie = s.tie := rfl
@[simp] theorem clearSteps_tif : (clearSteps s).tif = s.tif := rfl
@[simp] theorem clearSteps_stepcnt : (clearSteps s).stepcnt = 0#8 := rfl
@[simp] theorem clearSteps_target : (clearSteps s).target = s.target := rfl
@[simp] theorem clearSteps_map : (clearSteps s).map = s.map := rfl
@[simp] theorem clearSteps_port : (clearSteps s).port = s.port := rfl
@[simp] theorem clearSteps_pin : (clearSteps s).pin = s.pin := rfl
@[simp] theorem clearSteps_csr : (clearSteps s).csr = s.csr := rfl
@[simp] theorem clearSteps_fsm : (clearSteps s).fsm = s.fsm := rfl
@[simp] theorem clearSteps_err : (clearSteps s).err = s.err := rfl
@[simp] theorem clearSteps_cfg : (clearSteps s).cfg = s.cfg := rfl
@[simp] theorem clearSteps_stream : (clearSteps s).stream = s.stream := rfl
@[simp] theorem clearSteps_params : (clearSteps s).params = s.params := rfl

/-! setTarget -/

@[simp] theorem setTarget_tcnt (t : Nat) : (setTarget t s).tcnt = s.tcnt := rfl
@[simp] theorem setTarget_ocra (t : Nat) : (setTarget t s).ocra = s.ocra := rfl
@[simp] theorem setTarget_ocrb (t : Nat) : (setTarget t s).ocrb = s.ocrb := rfl
@[simp] theorem setTarget_tie (t : Nat) : (setTarget t s).tie = s.tie := rfl
@[simp] theorem setTarget_tif (t : Nat) : (setTarget t s).tif = s.tif := rfl
@[simp] theorem setTarget_stepcnt (t : Nat) : (setTarget t s).stepcnt = s.stepcnt := rfl
@[simp] theorem setTarget_target (t : Nat) : (setTarget t s).target = BitVec.ofNat 8 t := rfl
@[simp] theorem setTarget_map (t : Nat) : (setTarget t s).map = s.map := rfl
@[simp] theorem setTarget_port (t : Nat) : (setTarget t s).port = s.port := rfl
@[simp] theorem setTarget_pin (t : Nat) : (setTarget t s).pin = s.pin := rfl
@[simp] theorem setTarget_csr (t : Nat) : (setTarget t s).csr = s.csr := rfl
@[simp] theorem setTarget_fsm (t : Nat) : (setTarget t s).fsm = s.fsm := rfl
@[simp] theorem setTarget_err (t : Nat) : (setTarget t s).err = s.err := rfl
@[simp] theorem setTarget_cfg (t : Nat) : (setTarget t s).cfg = s.cfg := rfl
@[simp] theorem setTarget_stream (t : Nat) : (setTarget t s).stream = s.stream := rfl
@[simp] theorem setTarget_params (t : Nat) : (setTarget t s).params = s.params := rfl

/-! setMc -/

@[simp] theorem setMc_tcnt (m : Mc) : (setMc m s).tcnt = s.tcnt := rfl
@[simp] theorem setMc_ocra (m : Mc) : (setMc m s).ocra = s.ocra := rfl
@[simp] theorem setMc_ocrb (m : Mc) : (setMc m s).ocrb = s.ocrb := rfl
@[simp] theorem setMc_tie (m : Mc) : (setMc m s).tie = s.tie := rfl
@[simp] theorem setMc_tif (m : Mc) : (setMc m s).tif = s.tif := rfl
@[simp] theorem setMc_stepcnt (m : Mc) : (setMc m s).stepcnt = s.stepcnt := rfl
@[simp] theorem setMc_target (m : Mc) : (setMc m s).target = s.target := rfl
@[simp] theorem setMc_map (m : Mc) : (setMc m s).map = s.map := rfl
@[simp] theorem setMc_port (m : Mc) : (setMc m s).port = s.port := rfl
@[simp] theorem setMc_pin (m : Mc) : (setMc m s).pin = s.pin := rfl
@[simp] theorem setMc_csr (m : Mc) : (setMc m s).csr = s.csr := rfl
@[simp] theorem setMc_fsm (m : Mc) : (setMc m s).fsm = ⟨s.fsm.mcl, m⟩ := rfl
@[simp] theorem setMc_err (m : Mc) : (setMc m s).err = s.err := rfl
@[simp] theorem setMc_cfg (m : Mc) : (setMc m s).cfg = s.cfg := rfl
@[simp] theorem setMc_stream (m : Mc) : (setMc m s).stream = s.stream := rfl
@[simp] theorem setMc_params (m : Mc) : (setMc m s).params = s.params := rfl

/-! setMcl -/

@[simp] theorem setMcl_tcnt (m : Mcl) : (setMcl m s).tcnt = s.tcnt := rfl
@[simp] theorem setMcl_ocra (m : Mcl) : (setMcl m s).ocra = s.ocra := rfl
@[simp] theorem setMcl_ocrb (m : Mcl) : (setMcl m s).ocrb = s.ocrb := rfl
@[simp] theorem setMcl_tie (m : Mcl) : (setMcl m s).tie = s.tie := rfl
@[simp] theorem setMcl_tif (m : Mcl) : (setMcl m s).tif = s.tif := rfl
@[simp] theorem setMcl_stepcnt (m : Mcl) : (setMcl m s).stepcnt = s.stepcnt := rfl
@[simp] theorem setMcl_target (m : Mcl) : (setMcl m s).target = s.target := rfl
@[simp] theorem setMcl_map (m : Mcl) : (setMcl m s).map = s.map := rfl
@[simp] theorem setMcl_port (m : Mcl) : (setMcl m s).port = s.port := rfl
@[simp] theorem setMcl_pin (m : Mcl) : (setMcl m s).pin = s.pin := rfl
@[simp] theorem setMcl_csr (m : Mcl) : (setMcl m s).csr = s.csr := rfl
@[simp] theorem setMcl_fsm (m : Mcl) : (setMcl m s).fsm = ⟨m, s.fsm.mc⟩ := rfl
@[simp] theorem setMcl_err (m : Mcl) : (setMcl m s).err = s.err := rfl
@[simp] theorem setMcl_cfg (m : Mcl) : (setMcl m s).cfg = s.cfg := rfl
@[simp] theorem setMcl_stream (m : Mcl) : (setMcl m s).stream = s.stream := rfl
@[simp] theorem setMcl_params (m : Mcl) : (setMcl m s).params = s.params := rfl

/-! setStatus -/

@[simp] theorem setStatus_tcnt (b : Bool) : (setStatus b s).tcnt = s.tcnt := rfl
@[simp] theorem setStatus_ocra (b : Bool) : (setStatus b s).ocra = s.ocra := rfl
@[simp] theorem setStatus_ocrb (b : Bool) : (setStatus b s).ocrb = s.ocrb := rfl
@[simp] theorem setStatus_tie (b : Bool) : (setStatus b s).tie = s.tie := rfl
@[simp] theorem setStatus_tif (b : Bool) : (setStatus b s).tif = s.tif := rfl
@[simp] theorem setStatus_stepcnt (b : Bool) : (setStatus b s).stepcnt = s.stepcnt := rfl
@[simp] theorem setStatus_target (b : Bool) : (setStatus b s).target = s.target := rfl
@[simp] theorem setStatus_map (b : Bool) : (setStatus b s).map = s.map := rfl
@[simp] theorem setStatus_port (b : Bool) : (setStatus b s).port = ⟨s.port.coil0, s.port.coil1, b⟩ := rfl
@[simp] theorem setStatus_pin (b : Bool) : (setStatus b s).pin = s.pin := rfl
@[simp] theorem setStatus_csr (b : Bool) : (setStatus b s).csr = s.csr := rfl
@[simp] theorem setStatus_fsm (b : Bool) : (setStatus b s).fsm = s.fsm := rfl
@[simp] theorem setStatus_err (b : Bool) : (setStatus b s).err = s.err := rfl
@[simp] theorem setStatus_cfg (b : Bool) : (setStatus b s).cfg = s.cfg := rfl
@[simp] theorem setStatus_stream (b : Bool) : (setStatus b s).stream = s.stream := rfl
@[simp] theorem setStatus_params (b : Bool) : (setStatus b s).params = s.params := rfl

/-! resetRegisters -/

@[simp] theorem resetRegisters_tcnt : (resetRegisters s).tcnt = 0#8 := rfl
@[simp] theorem resetRegisters_ocra : (resetRegisters s).ocra = 0#8 := rfl
@[simp] theorem resetRegisters_ocrb : (resetRegisters s).ocrb = 0#8 := rfl
@[simp] theorem resetRegisters_tie : (resetRegisters s).tie = ⟨false, false⟩ := rfl
@[simp] theorem resetRegisters_tif : (resetRegisters s).tif = ⟨false, false⟩ := rfl
@[simp] theorem resetRegisters_stepcnt : (resetRegisters s).stepcnt = 0#8 := rfl
@[simp] theorem resetRegisters_target : (resetRegisters s).target = 0#8 := rfl
@[simp] theorem resetRegisters_map : (resetRegisters s).map = .forward := rfl
@[simp] theorem resetRegisters_port : (resetRegisters s).port = ⟨false, false, false⟩ := rfl
@[simp] theorem resetRegisters_pin : (resetRegisters s).pin = s.pin := rfl
@[simp] theorem resetRegisters_csr : (resetRegisters s).csr = false := rfl
@[simp] theorem resetRegisters_fsm : (resetRegisters s).fsm = ⟨.idle, .idle⟩ := rfl
@[simp] theorem resetRegisters_err : (resetRegisters s).err = ⟨false, false, false⟩ := rfl
@[simp] theorem resetRegisters_cfg : (resetRegisters s).cfg = false := rfl
@[simp] theorem resetRegisters_stream : (resetRegisters s).stream = s.stream := rfl
@[simp] theorem resetRegisters_params : (resetRegisters s).params = s.params := rfl

/-! raiseErr -/

@[simp] theorem raiseErr_tcnt (e : ErrBit) : (raiseErr e s).tcnt = s.tcnt := rfl
@[simp] theorem raiseErr_ocra (e : ErrBit) : (raiseErr e s).ocra = s.ocra := rfl
@[simp] theorem raiseErr_ocrb (e : ErrBit) : (raiseErr e s).ocrb = s.ocrb := rfl
@[simp] theorem raiseErr_tie (e : ErrBit) : (raiseErr e s).tie = s.tie := rfl
@[simp] theorem raiseErr_tif (e : ErrBit) : (raiseErr e s).tif = s.tif := rfl
@[simp] theorem raiseErr_stepcnt (e : ErrBit) : (raiseErr e s).stepcnt = s.stepcnt := rfl
@[simp] theorem raiseErr_target (e : ErrBit) : (raiseErr e s).target = s.target := rfl
@[simp] theorem raiseErr_map (e : ErrBit) : (raiseErr e s).map = s.map := rfl
@[simp] theorem raiseErr_port (e : ErrBit) : (raiseErr e s).port = s.port := rfl
@[simp] theorem raiseErr_pin (e : ErrBit) : (raiseErr e s).pin = s.pin := rfl
@[simp] theorem raiseErr_csr (e : ErrBit) : (raiseErr e s).csr = s.csr := rfl
@[simp] theorem raiseErr_fsm (e : ErrBit) : (raiseErr e s).fsm = s.fsm := rfl
@[simp] theorem raiseErr_err (e : ErrBit) : (raiseErr e s).err = s.err.set e := rfl
@[simp] theorem raiseErr_cfg (e : ErrBit) : (raiseErr e s).cfg = s.cfg := rfl
@[simp] theorem raiseErr_stream (e : ErrBit) : (raiseErr e s).stream = s.stream := rfl
@[simp] theorem raiseErr_params (e : ErrBit) : (raiseErr e s).params = s.params := rfl

/-! present -/

@[simp] theorem present_tcnt (w : Word) : (present w s).tcnt = s.tcnt := rfl
@[simp] theorem present_ocra (w : Word) : (present w s).ocra = s.ocra := rfl
@[simp] theorem present_ocrb (w : Word) : (present w s).ocrb = s.ocrb := rfl
@[simp] theorem present_tie (w : Word) : (present w s).tie = s.tie := rfl
@[simp] theorem present_tif (w : Word) : (present w s).tif = s.tif := rfl
@[simp] theorem present_stepcnt (w : Word) : (present w s).stepcnt = s.stepcnt := rfl
@[simp] theorem present_target (w : Word) : (present w s).target = s.target := rfl
@[simp] theorem present_map (w : Word) : (present w s).map = s.map := rfl
@[simp] theorem present_port (w : Word) : (present w s).port = s.port := rfl
@[simp] theorem present_pin (w : Word) : (present w s).pin = s.pin := rfl
@[simp] theorem present_csr (w : Word) : (present w s).csr = s.csr := rfl
@[simp] theorem present_fsm (w : Word) : (present w s).fsm = s.fsm := rfl
@[simp] theorem present_err (w : Word) : (present w s).err = s.err := rfl
@[simp] theorem present_cfg (w : Word) : (present w s).cfg = s.cfg := rfl
@[simp] theorem present_stream (w : Word) : (present w s).stream = w :: s.stream := rfl
@[simp] theorem present_params (w : Word) : (present w s).params = s.params := rfl

end

/-! The parts of PORT, TIF and ERR that an update leaves. -/

@[simp] theorem toggle_status (p : Port) (l : Line) : (p.toggle l).status = p.status := by cases l <;> rfl

@[simp] theorem toggle_line_self (p : Port) (l : Line) : (p.toggle l).line l = !p.line l := by cases l <;> rfl

theorem toggle_line_other (p : Port) {l m : Line} (h : m ≠ l) : (p.toggle l).line m = p.line m := by
  cases l <;> cases m <;> first | rfl | exact absurd rfl h

@[simp] theorem clear_pending_self (f : Tif) (ch : Channel) : (f.clear ch).pending ch = false := by cases ch <;> rfl

theorem clear_pending_other (f : Tif) {ch ch' : Channel} (h : ch' ≠ ch) : (f.clear ch).pending ch' = f.pending ch' := by
  cases ch <;> cases ch' <;> first | rfl | exact absurd rfl h

@[simp] theorem set_bit_self (e : Err) (b : ErrBit) : (e.set b).bit b = true := by cases b <;> rfl

theorem set_bit_other (e : Err) {b c : ErrBit} (h : c ≠ b) : (e.set b).bit c = e.bit c := by
  cases b <;> cases c <;> first | rfl | exact absurd rfl h

theorem lineOf_b_ne_a (d : Dir) : lineOf .b d ≠ lineOf .a d := by cases d <;> decide

/-- SYS.RESET's registers are those of a power-on with the pin at its present level (R113 to R115). -/
theorem resetRegisters_eq_powerOn (s : State) :
    resetRegisters s = { State.powerOn s.params with pin := s.pin, stream := s.stream } := rfl

end Sys2Proof.Machine
end

