-- ==== Sys2Proof/Laws/Ops.lean ====
section
/-! SUPPORT. One lemma per shared condition or operation that says everything it can do; the laws above it cite these
instead of unfolding the operation. -/

namespace Sys2Proof.Machine

/-! ## Conditions -/

theorem matchA_iff (s : State) : matchA s = true ↔ s.tcnt = s.ocra := by simp [matchA]

theorem matchB_iff (s : State) : matchB s = true ↔ s.tcnt = s.ocrb := by simp [matchB]

theorem tickEnabled_iff (s : State) : tickEnabled s = true ↔ s.tif = ⟨false, false⟩ := by
  rcases h : s.tif with ⟨pa, pb⟩
  cases pa <;> cases pb <;> simp [tickEnabled, Tif.any, h]

theorem hold_iff (s : State) :
    hold s = true ↔ s.fsm.mc = .run ∧ s.target.toNat + s.params.overshootMax ≤ s.stepcnt.toNat := by
  simp [hold]

theorem evaEnabled_iff (s : State) : evaEnabled s = true ↔ s.tif.pa = true ∧ ¬ hold s = true := by
  simp [evaEnabled]

theorem evbEnabled_iff (s : State) :
    evbEnabled s = true ↔ s.tif.pb = true ∧ s.tif.pa = false ∧ ¬ hold s = true := by
  simp [evbEnabled, and_assoc]

theorem targetReached_iff (s : State) : targetReached s = true ↔ s.target.toNat ≤ s.stepcnt.toNat := by
  simp [targetReached]

/-! ## Legality -/

theorem require_true {c : Bool} (h : c = true) (e : ErrBit) (f : State → State) (s : State) :
    require c e f s = f s := by simp [require, h]

theorem require_false {c : Bool} (h : c = false) (e : ErrBit) (f : State → State) (s : State) :
    require c e f s = raiseErr e s := by simp [require, h]

/-- A legality check performs the operation or raises its error. -/
theorem require_cases (c : Bool) (e : ErrBit) (f : State → State) (s : State) :
    (c = true ∧ require c e f s = f s) ∨ (c = false ∧ require c e f s = raiseErr e s) := by
  cases c <;> simp [require]

theorem requireMode_self {m : HostMode} {s : State} (h : s.params.hostMode = m) (f : State → State) :
    requireMode m f s = f s := by simp [requireMode, require, h]

theorem requireMode_other {m : HostMode} {s : State} (h : s.params.hostMode ≠ m) (f : State → State) :
    requireMode m f s = raiseErr .proto s := by simp [requireMode, require, h]

/-! ## The motion controller's calls -/

theorem mcStart_performed {s : State} (hc : s.cfg = true) (hm : s.fsm.mc = .idle) (d : Dir) (angle : Nat) :
    mcStart d angle s = beginMove d angle s := by simp [mcStart, require, hc, hm]

theorem mcStart_refused {s : State} (h : s.cfg = false ∨ s.fsm.mc ≠ .idle) (d : Dir) (angle : Nat) :
    mcStart d angle s = raiseErr .proto s := by
  rcases h with h | h <;> simp [mcStart, require, h]

/-- What beginning a move can do: out of range, no step to make, or armed (R91 to R93). -/
theorem beginMove_cases (d : Dir) (angle : Nat) (s : State) :
    (s.params.targetMax < stepsOfAngle s.params.angleArith angle ∧
      beginMove d angle s = setMc .done (raiseErr .range (setTarget 0 (clearSteps (ctdInstall d s))))) ∨
    (stepsOfAngle s.params.angleArith angle = 0 ∧
      beginMove d angle s = setMc .done (setTarget 0 (clearSteps (ctdInstall d s)))) ∨
    (1 ≤ stepsOfAngle s.params.angleArith angle ∧
      stepsOfAngle s.params.angleArith angle ≤ s.params.targetMax ∧
      beginMove d angle s = setMc .run (tpgIrqEnable (tpgClear
        (setTarget (stepsOfAngle s.params.angleArith angle) (clearSteps (ctdInstall d s)))))) := by
  unfold beginMove armMove
  split
  next h => exact .inl ⟨h, rfl⟩
  next h =>
    have h : ¬ s.params.targetMax < stepsOfAngle s.params.angleArith angle := h
    split
    next h₀ => exact .inr (.inl ⟨h₀, rfl⟩)
    next h₀ => exact .inr (.inr ⟨by omega, by omega, rfl⟩)

theorem mcPoll_performed {s : State} (h : s.fsm.mc = .run) : mcPoll s = pollMove s := by
  simp [mcPoll, require, h]

theorem mcPoll_refused {s : State} (h : s.fsm.mc ≠ .run) : mcPoll s = raiseErr .proto s := by
  simp [mcPoll, require, h]

/-- What a poll can do: end the move, or nothing (R95). -/
theorem pollMove_cases (s : State) :
    (targetReached s = true ∧ pollMove s = setMc .done (tpgIrqDisable s)) ∨
    (targetReached s = false ∧ pollMove s = s) := by
  unfold pollMove
  cases targetReached s <;> simp

theorem mcAck_performed {s : State} (h : s.fsm.mc = .done) : mcAck s = setMc .idle s := by
  simp [mcAck, require, h]

theorem mcAck_refused {s : State} (h : s.fsm.mc ≠ .done) : mcAck s = raiseErr .proto s := by
  simp [mcAck, require, h]

/-! ## The sequencer -/

/-- One arm of a commanded move, without the motion controller's legality, which holds by the case (R104). -/
theorem mclMove_cases (d : Dir) (onReturn : State → State) (s : State) (hc : s.cfg = true) :
    (s.fsm.mc = .idle ∧ mclMove d onReturn s = beginMove d s.params.moveAngle.val s) ∨
    (s.fsm.mc = .run ∧ mclMove d onReturn s = pollMove s) ∨
    (s.fsm.mc = .done ∧ mclMove d onReturn s = onReturn (setMc .idle s)) := by
  unfold mclMove
  cases h : s.fsm.mc
  · exact .inl ⟨rfl, mcStart_performed hc h ..⟩
  · exact .inr (.inl ⟨rfl, mcPoll_performed h⟩)
  · exact .inr (.inr ⟨rfl, by rw [mcAck_performed h]⟩)

/-! ## The stream -/

/-- Taking a word: exactly the head of the stream. -/
theorem takeWord_eq_some {s s' : State} {w : Word} :
    takeWord s = some (w, s') ↔ ∃ rest, s.stream = w :: rest ∧ s' = { s with stream := rest } := by
  unfold takeWord
  cases h : s.stream with
  | nil => simp
  | cons w' rest =>
    constructor
    · intro e
      simp only [Option.some.injEq, Prod.mk.injEq] at e
      exact ⟨rest, by rw [e.1], e.2.symm⟩
    · rintro ⟨rest', e, rfl⟩
      cases e
      rfl

theorem takeWord_eq_none {s : State} : takeWord s = none ↔ s.stream = [] := by
  unfold takeWord
  cases s.stream <;> simp

theorem takeWord_present (w : Word) (s : State) : takeWord (present w s) = some (w, s) := rfl

end Sys2Proof.Machine
end

