-- ==== Sys2Proof/Laws/Exec.lean ====
section
/-! SUPPORT. What an operation can do: its outcome operation by operation, and one inversion lemma over all of them
(`exec_next_effect`), from which an invariant follows by cases. -/

namespace Sys2Proof.Machine

/-! ## Operation by operation -/

theorem exec_tpgConfig (p : Nat) (s : State) :
    exec (.tpgConfig p) s = .next (if s.cfg then raiseErr .proto s else setPeriod p s) := by
  cases h : s.cfg <;> simp [exec, execTpgConfig, require, h]

theorem exec_tpgTick_next {s t : State} :
    exec .tpgTick s = .next t ↔ tickEnabled s = true ∧ t = countTick s := by
  cases h : tickEnabled s <;> simp [exec, execTpgTick, h, eq_comm]

theorem exec_ctdEva_next {s t : State} :
    exec .ctdEva s = .next t ↔ evaEnabled s = true ∧ t = serviceEvent .a s := by
  cases h : evaEnabled s <;> simp [exec, execCtdEva, h, eq_comm]

theorem exec_ctdEvb_next {s t : State} :
    exec .ctdEvb s = .next t ↔ evbEnabled s = true ∧ t = serviceEvent .b s := by
  cases h : evbEnabled s <;> simp [exec, execCtdEvb, h, eq_comm]

theorem exec_csmEdge (l : Level) (s : State) :
    exec (.csmEdge l) s = .next (if l = s.pin then s else samplePin l s) := rfl

theorem exec_mcStart (d : Dir) (angle : Nat) (s : State) :
    exec (.mcStart d angle) s = .next (requireMode .direct (mcStart d angle) s) := rfl

theorem exec_mcPoll (s : State) : exec .mcPoll s = .next (requireMode .direct mcPoll s) := rfl

theorem exec_mcAck (s : State) : exec .mcAck s = .next (requireMode .direct mcAck s) := rfl

theorem exec_mclStep (s : State) :
    exec .mclStep s = .next (requireMode .sequencer (require s.cfg .proto mclArm) s) := rfl

theorem exec_sysReset (s : State) : exec .sysReset s = .next (resetRegisters s) := rfl

/-! ## Over all operations -/

/-- The changes of state an operation can make, each with the condition it needs. -/
inductive Effect (s : State) : Instr → State → Prop where
  /-- no effect by rule (R9 outcome 4) -/
  | same (i : Instr) (h : i = .csmEdge s.pin ∨ i = .mcPoll ∨ i = .mclStep) : Effect s i s
  /-- refused with ERR.PROTO (R9 outcome 3, R120) -/
  | refused (i : Instr) (h : i.agent = .fg) : Effect s i (raiseErr .proto s)
  | configured (p : Nat) (h : s.cfg = false) : Effect s (.tpgConfig p) (setPeriod p s)
  | ticked (h : tickEnabled s = true) : Effect s .tpgTick (countTick s)
  | servicedA (h : evaEnabled s = true) : Effect s .ctdEva (serviceEvent .a s)
  | servicedB (h : evbEnabled s = true) : Effect s .ctdEvb (serviceEvent .b s)
  | edge (l : Level) (h : l ≠ s.pin) : Effect s (.csmEdge l) (samplePin l s)
  | began (i : Instr) (d : Dir) (angle : Nat) (hi : i = .mcStart d angle ∧ s.params.hostMode = .direct ∨
      i = .mclStep ∧ s.params.hostMode = .sequencer ∧ (s.fsm.mcl = .opening ∨ s.fsm.mcl = .closing))
      (hc : s.cfg = true) (hm : s.fsm.mc = .idle) : Effect s i (beginMove d angle s)
  | ended (i : Instr) (hi : i = .mcPoll ∧ s.params.hostMode = .direct ∨
      i = .mclStep ∧ s.params.hostMode = .sequencer ∧ (s.fsm.mcl = .opening ∨ s.fsm.mcl = .closing))
      (hm : s.fsm.mc = .run) (hr : targetReached s = true) : Effect s i (setMc .done (tpgIrqDisable s))
  | acknowledged (hd : s.params.hostMode = .direct) (hm : s.fsm.mc = .done) : Effect s .mcAck (setMc .idle s)
  | toOpening (hq : s.params.hostMode = .sequencer) (hc : s.cfg = true) (hs : s.fsm.mcl = .idle) (hk : s.csr = true) :
      Effect s .mclStep (setStatus true (setMcl .opening s))
  | toHolding (hq : s.params.hostMode = .sequencer) (hc : s.cfg = true) (hs : s.fsm.mcl = .opening)
      (hm : s.fsm.mc = .done) : Effect s .mclStep (setMcl .holding (setMc .idle s))
  | toClosing (hq : s.params.hostMode = .sequencer) (hc : s.cfg = true) (hs : s.fsm.mcl = .holding) (hk : s.csr = false) :
      Effect s .mclStep (setMcl .closing s)
  | toIdle (hq : s.params.hostMode = .sequencer) (hc : s.cfg = true) (hs : s.fsm.mcl = .closing)
      (hm : s.fsm.mc = .done) : Effect s .mclStep (setStatus false (setMcl .idle (setMc .idle s)))
  | reset : Effect s .sysReset (resetRegisters s)

/-- Polling a running move, by the word or by the sequencer: it ends, or nothing changes. -/
theorem pollMove_effect {s : State} {i : Instr} (hm : s.fsm.mc = .run)
    (hi : i = .mcPoll ∧ s.params.hostMode = .direct ∨
      i = .mclStep ∧ s.params.hostMode = .sequencer ∧ (s.fsm.mcl = .opening ∨ s.fsm.mcl = .closing)) :
    Effect s i (pollMove s) := by
  rcases pollMove_cases s with ⟨hr, e⟩ | ⟨-, e⟩ <;> rw [e]
  · exact .ended i hi hm hr
  · exact .same i (hi.elim (fun h => .inr (.inl h.1)) fun h => .inr (.inr h.1))

/-- Each arm of the sequencer is one of the changes (R105 to R108). -/
theorem mclArm_effect {s : State} (hq : s.params.hostMode = .sequencer) (hc : s.cfg = true) :
    Effect s .mclStep (mclArm s) := by
  unfold mclArm
  cases hs : s.fsm.mcl with
  | idle =>
    cases hk : s.csr
    · simpa [mclIdle, hk] using Effect.same _ (.inr (.inr rfl))
    · simpa [mclIdle, hk] using Effect.toOpening hq hc hs hk
  | opening =>
    have hi := Or.inr (a := Instr.mclStep = .mcPoll ∧ s.params.hostMode = .direct)
      (⟨rfl, hq, .inl hs⟩ : Instr.mclStep = .mclStep ∧ s.params.hostMode = .sequencer ∧
        (s.fsm.mcl = .opening ∨ s.fsm.mcl = .closing))
    rcases mclMove_cases s.params.openDir (setMcl .holding) s hc with ⟨hm, e⟩ | ⟨hm, e⟩ | ⟨hm, e⟩ <;>
      simp only [mclOpening, e]
    · exact .began _ _ _ (.inr ⟨rfl, hq, .inl hs⟩) hc hm
    · exact pollMove_effect hm hi
    · exact .toHolding hq hc hs hm
  | holding =>
    cases hk : s.csr
    · simpa [mclHolding, hk] using Effect.toClosing hq hc hs hk
    · simpa [mclHolding, hk] using Effect.same _ (.inr (.inr rfl))
  | closing =>
    have hi := Or.inr (a := Instr.mclStep = .mcPoll ∧ s.params.hostMode = .direct)
      (⟨rfl, hq, .inr hs⟩ : Instr.mclStep = .mclStep ∧ s.params.hostMode = .sequencer ∧
        (s.fsm.mcl = .opening ∨ s.fsm.mcl = .closing))
    rcases mclMove_cases s.params.openDir.flip (fun u => setStatus false (setMcl .idle u)) s hc with
      ⟨hm, e⟩ | ⟨hm, e⟩ | ⟨hm, e⟩ <;> simp only [mclClosing, e]
    · exact .began _ _ _ (.inr ⟨rfl, hq, .inr hs⟩) hc hm
    · exact pollMove_effect hm hi
    · exact .toIdle hq hc hs hm

/-- Everything an operation that has its step can do. -/
theorem exec_next_effect {i : Instr} {s t : State} (h : exec i s = .next t) : Effect s i t := by
  have inj : ∀ {u : State}, exec i s = .next u → t = u := fun e => by simpa using h.symm.trans e
  cases i with
  | tpgConfig p =>
    rw [inj (exec_tpgConfig p s)]
    cases hc : s.cfg
    · simpa using Effect.configured p hc
    · simpa using Effect.refused (.tpgConfig p) rfl
  | tpgTick => obtain ⟨he, rfl⟩ := exec_tpgTick_next.1 h; exact .ticked he
  | ctdEva => obtain ⟨he, rfl⟩ := exec_ctdEva_next.1 h; exact .servicedA he
  | ctdEvb => obtain ⟨he, rfl⟩ := exec_ctdEvb_next.1 h; exact .servicedB he
  | csmEdge l =>
    rw [inj (exec_csmEdge l s)]
    split
    next hl => subst hl; exact .same _ (.inl rfl)
    next hl => exact .edge l hl
  | mcStart d angle =>
    rw [inj (exec_mcStart d angle s)]
    by_cases hd : s.params.hostMode = .direct
    · rw [requireMode_self hd]
      by_cases hl : s.cfg = false ∨ s.fsm.mc ≠ .idle
      · rw [mcStart_refused hl]; exact .refused _ rfl
      · simp only [not_or, Bool.not_eq_false, not_not] at hl
        rw [mcStart_performed hl.1 hl.2]
        exact .began _ d angle (.inl ⟨rfl, hd⟩) hl.1 hl.2
    · rw [requireMode_other hd]; exact .refused _ rfl
  | mcPoll =>
    rw [inj (exec_mcPoll s)]
    by_cases hd : s.params.hostMode = .direct
    · rw [requireMode_self hd]
      by_cases hm : s.fsm.mc = .run
      · rw [mcPoll_performed hm]; exact pollMove_effect hm (.inl ⟨rfl, hd⟩)
      · rw [mcPoll_refused hm]; exact .refused _ rfl
    · rw [requireMode_other hd]; exact .refused _ rfl
  | mcAck =>
    rw [inj (exec_mcAck s)]
    by_cases hd : s.params.hostMode = .direct
    · rw [requireMode_self hd]
      by_cases hm : s.fsm.mc = .done
      · rw [mcAck_performed hm]; exact .acknowledged hd hm
      · rw [mcAck_refused hm]; exact .refused _ rfl
    · rw [requireMode_other hd]; exact .refused _ rfl
  | mclStep =>
    rw [inj (exec_mclStep s)]
    by_cases hq : s.params.hostMode = .sequencer
    · rw [requireMode_self hq]
      cases hc : s.cfg
      · rw [require_false rfl]; exact .refused _ rfl
      · rw [require_true rfl]; exact mclArm_effect hq hc
    · rw [requireMode_other hq]; exact .refused _ rfl
  | sysReset => rw [inj (exec_sysReset s)]; exact .reset

end Sys2Proof.Machine
end

