-- ==== Sys2Proof/Laws/PerInstr.lean ====
section
/-! SUPPORT. Statements made per instruction: the fields of an operation's word (30_encoding.md R50, R51). -/

namespace Sys2Proof.Laws.EncodeFields

/-- The word of an operation holds its opcode in 31:24, 0 in 23:17, its one-bit operand in 16, its low operand in 15:0. -/
def Statement (i : Instr) : Prop :=
  opcodeField (encode i) = opcodeOf i ∧ (encode i).extractLsb' 17 7 = 0#7 ∧
    bitField (encode i) = bitOperand i ∧ angleField (encode i) = immOperand i

theorem of_packWord (i : Instr) : Statement i :=
  ⟨opcodeField_packWord .., rsvField_packWord .., bitField_packWord .., angleField_packWord ..⟩

theorem tpgConfig (p : Nat) : Statement (.tpgConfig p) := of_packWord _
theorem tpgTick : Statement .tpgTick := of_packWord _
theorem ctdEva : Statement .ctdEva := of_packWord _
theorem ctdEvb : Statement .ctdEvb := of_packWord _
theorem csmEdge (l : Level) : Statement (.csmEdge l) := of_packWord _
theorem mcStart (d : Dir) (angle : Nat) : Statement (.mcStart d angle) := of_packWord _
theorem mcPoll : Statement .mcPoll := of_packWord _
theorem mcAck : Statement .mcAck := of_packWord _
theorem mclStep : Statement .mclStep := of_packWord _
theorem sysReset : Statement .sysReset := of_packWord _

end Sys2Proof.Laws.EncodeFields
end

