-- ==== Sys2Proof/Laws/Step.lean ====
section
/-! SUPPORT. What one step of the machine can do. -/

namespace Sys2Proof.Machine

/-- A step that answers a next state took the head word, and performed its operation or raised ERR.ILL. -/
theorem step_next_cases {s t : State} (h : step s = .next t) :
    ∃ w rest, s.stream = w :: rest ∧
      ((∃ i, decode w = .ok i ∧ exec i { s with stream := rest } = .next t) ∨
       (∃ why, decode w = .reject why ∧ t = raiseErr .ill { s with stream := rest })) := by
  unfold step at h
  cases e : takeWord s with
  | none => simp [e] at h
  | some p =>
    obtain ⟨w, s'⟩ := p
    obtain ⟨rest, hs, rfl⟩ := takeWord_eq_some.1 e
    refine ⟨w, rest, hs, ?_⟩
    simp only [e] at h
    cases d : decode w with
    | ok i => exact .inl ⟨i, rfl, by simpa [d] using h⟩
    | reject why => exact .inr ⟨why, rfl, by simpa [d, illegalWord] using h.symm⟩

/-- The word `withFetchWord` places is the one the next step takes. -/
theorem takeWord_withFetchWord (s : State) (nbits w : Nat) :
    takeWord (s.withFetchWord nbits w) = some (BitVec.ofNat 32 (w % 2 ^ nbits), s) := rfl

end Sys2Proof.Machine
end

