-- ==== Sys2Proof/Tests/Slice0.lean ====
section
/-! SUPPORT. Tests of the model against spec/95_test_vectors.md and the examples of the rules, and a witness for the
hypotheses of every obligation. -/

namespace Sys2Proof.Tests

open Sys2Proof.Machine

/-! ## Helpers -/

/-- The parameters of the Direct-mode vectors: MulFirst, OVERSHOOT_MAX = 1. -/
def direct : Params := { Params.reference with hostMode := .direct, angleArith := .mulFirst }

/-- The parameters of the Sequencer-mode vectors: MulFirst, MOVE_ANGLE = 90. -/
def sequencer : Params := { Params.reference with angleArith := .mulFirst }

/-- A state written as the vectors write it: TCNT OCRA OCRB TIE TIF STEPCNT TARGET MAP PORT PIN CSR FSM ERR CFG. -/
def machine (p : Params) (tcnt ocra ocrb tie tif stepcnt target map port pin csr fsm err cfg : Nat) : State where
  tcnt := BitVec.ofNat 8 tcnt
  ocra := BitVec.ofNat 8 ocra
  ocrb := BitVec.ofNat 8 ocrb
  tie := ⟨tie.testBit 0, tie.testBit 1⟩
  tif := ⟨tif.testBit 0, tif.testBit 1⟩
  stepcnt := BitVec.ofNat 8 stepcnt
  target := BitVec.ofNat 8 target
  map := if map = 0 then .forward else .reverse
  port := ⟨port.testBit 0, port.testBit 1, port.testBit 2⟩
  pin := if pin = 0 then .low else .high
  csr := csr.testBit 0
  fsm := ⟨match fsm % 4 with | 0 => .idle | 1 => .opening | 2 => .holding | _ => .closing,
    match fsm / 4 with | 0 => .idle | 1 => .run | _ => .done⟩
  err := ⟨err.testBit 0, err.testBit 1, err.testBit 2⟩
  cfg := cfg.testBit 0
  stream := []
  params := p

/-- The fourteen bytes after a step. -/
def shown : Result → Option (List Nat)
  | .next t => some ((regBytes t).map BitVec.toNat)
  | _ => none

/-- The fault a step stops with. -/
def stop : Result → Option Fault
  | .fault f => some f
  | _ => none

/-- A step that is taken changes a part of the state. -/
def changes {α : Type} [DecidableEq α] (part : State → α) (i : Instr) (s : State) : Bool :=
  match exec i s with
  | .next t => decide (part t ≠ part s)
  | _ => false

/-! ## WellFormed: each check refuses an ill-formed operation (R52) -/

theorem test_wellFormed_refuses_period_256 : (Instr.tpgConfig 256).wellFormed = false := by decide
theorem test_wellFormed_takes_period_255 : (Instr.tpgConfig 255).wellFormed = true := by decide
theorem test_wellFormed_refuses_angle_65536 : (Instr.mcStart .forward 65536).wellFormed = false := by decide
theorem test_wellFormed_takes_angle_65535 : (Instr.mcStart .forward 65535).wellFormed = true := by decide

/-! ## Decoding words written from R50 to R53, vectors V30 -/

theorem test_decode_tpgConfig : decode 0b00010000_0000000_0_00000000_01100101#32 = .ok (.tpgConfig 101) := by decide
theorem test_decode_tpgTick : decode 0b00010001_0000000_0_00000000_00000000#32 = .ok .tpgTick := by decide
theorem test_decode_ctdEva : decode 0b00100000_0000000_0_00000000_00000000#32 = .ok .ctdEva := by decide
theorem test_decode_ctdEvb : decode 0b00100001_0000000_0_00000000_00000000#32 = .ok .ctdEvb := by decide
theorem test_decode_csmEdge : decode 0b00110000_0000000_1_00000000_00000000#32 = .ok (.csmEdge .high) := by decide
theorem test_decode_mcStart : decode 0b01000000_0000000_1_00000001_11001010#32 = .ok (.mcStart .reverse 458) := by decide
theorem test_decode_mcPoll : decode 0b01000001_0000000_0_00000000_00000000#32 = .ok .mcPoll := by decide
theorem test_decode_mcAck : decode 0b01000010_0000000_0_00000000_00000000#32 = .ok .mcAck := by decide
theorem test_decode_mclStep : decode 0b01010000_0000000_0_00000000_00000000#32 = .ok .mclStep := by decide
theorem test_decode_sysReset : decode 0b11110000_0000000_0_00000000_00000000#32 = .ok .sysReset := by decide

/-- V30-3, V30-5, V30-7, V30-10, V30-11 to V30-13. -/
theorem test_decode_illegal_words :
    [0x10000100#32, 0x11000001#32, 0x30000001#32, 0x40020000#32, 0x00000000#32, 0xFFFFFFFF#32, 0x12000000#32].all
      (fun w => (decode w).instr? == none) = true := by decide

/-- V30-15: little-endian serialisation (R40). -/
theorem test_decode_bytes : decodeBytes [0x09#8, 0x00#8, 0x00#8, 0x40#8] = .ok (.mcStart .forward 9) := by decide
theorem test_decode_truncated : decodeBytes [0x09#8, 0x00#8, 0x00#8] = .reject .truncated := by decide

theorem test_decodeTableWord : decodeTableWord 32 0x4001005A = some (.mcStart .reverse 90) := by decide

/-- The first word after reset is performed by the next step: V40-3. -/
theorem test_step_withFetchWord : shown (step (State.reset.withFetchWord 32 0x10000065)) =
    some [0x00, 0x65, 0x32, 0, 0, 0, 0, 0, 0, 1, 0, 0, 0, 1] := by decide

/-- R121: any illegal word sets ERR.ILL and nothing else. -/
theorem test_step_illegal : shown (step (State.reset.withFetchWord 32 0)) =
    some [0, 0, 0, 0, 0, 0, 0, 0, 0, 1, 0, 0, 4, 0] := by decide

/-- V45-2: RegRead past the registers. -/
theorem test_regRead_beyond : regRead (machine direct 3 4 2 3 3 5 5 1 6 0 1 7 3 1) 0x0E#8 = 0x00#8 := by decide

/-! ## Each operation, at most two vectors -/

/-- V40-4. -/
theorem test_tpgConfig : shown (exec (.tpgConfig 255) (machine direct 0 0 0 0 0 0 0 0 0 1 0 0 0 0)) =
    some [0x00, 0xFF, 0x7F, 0, 0, 0, 0, 0, 0, 1, 0, 0, 0, 1] := by decide

/-- V40-5: a second configuration is refused. -/
theorem test_tpgConfig_twice : shown (exec (.tpgConfig 9) (machine direct 0 0x65 0x32 0 0 0 0 0 0 1 0 0 0 1)) =
    some [0x00, 0x65, 0x32, 0, 0, 0, 0, 0, 0, 1, 0, 0, 2, 1] := by decide

/-- V40-11: match A clears the count and is pending. -/
theorem test_tpgTick : shown (exec .tpgTick (machine direct 4 4 2 3 0 1 5 0 2 1 0 4 0 1)) =
    some [0, 4, 2, 3, 1, 1, 5, 0, 2, 1, 0, 4, 0, 1] := by decide

/-- V40-8: match B while disabled leaves no pending bit. -/
theorem test_tpgTick_disabled : shown (exec .tpgTick (machine direct 2 4 2 0 0 0 0 0 0 1 0 0 0 1)) =
    some [3, 4, 2, 0, 0, 0, 0, 0, 0, 1, 0, 0, 0, 1] := by decide

/-- V41-3: Reverse, A drives COIL1. -/
theorem test_ctdEva : shown (exec .ctdEva (machine direct 0 4 2 3 1 1 5 1 1 1 0 4 0 1)) =
    some [0, 4, 2, 3, 0, 2, 5, 1, 3, 1, 0, 4, 0, 1] := by decide

/-- V41-7: the hold. -/
theorem test_ctdEva_hold : stop (exec .ctdEva (machine direct 0 0 0 3 3 2 1 1 3 1 0 4 0 1)) = some .evaNotEnabled := by
  decide

/-- V41-9: one extra step is admitted. -/
theorem test_ctdEvb : shown (exec .ctdEvb (machine direct 3 4 2 3 2 5 5 0 2 1 0 4 0 1)) =
    some [3, 4, 2, 3, 0, 6, 5, 0, 0, 1, 0, 4, 0, 1] := by decide

/-- V41-5: A goes first. -/
theorem test_ctdEvb_after_a : stop (exec .ctdEvb (machine direct 0 0 0 3 3 0 1 1 0 1 0 4 0 1)) = some .evbNotEnabled := by
  decide

/-- V42-1. -/
theorem test_csmEdge : shown (exec (.csmEdge .low) (machine direct 0 0 0 0 0 0 0 0 0 1 0 0 0 0)) =
    some [0, 0, 0, 0, 0, 0, 0, 0, 0, 0, 1, 0, 0, 0] := by decide

/-- V42-5: not an edge, CrankState stays false although the pin is low. -/
theorem test_csmEdge_no_edge : shown (exec (.csmEdge .low) (machine direct 0 0 0 0 0 0 0 0 0 0 0 0 0 0)) =
    some [0, 0, 0, 0, 0, 0, 0, 0, 0, 0, 0, 0, 0, 0] := by decide

/-- V43-6 with V43-18: the largest legal target, and the count cleared. -/
theorem test_mcStart : shown (exec (.mcStart .forward 458) (machine direct 3 4 2 0 0 0 0 0 0 1 0 0 0 1)) =
    some [0, 4, 2, 3, 0, 0, 0xFE, 0, 0, 1, 0, 4, 0, 1] := by decide

/-- V43-7: out of range. -/
theorem test_mcStart_range : shown (exec (.mcStart .forward 459) (machine direct 0 4 2 0 0 0 0 0 0 1 0 0 0 1)) =
    some [0, 4, 2, 0, 0, 0, 0, 0, 0, 1, 0, 8, 1, 1] := by decide

/-- V43-14: a pending request is dropped by the disable. -/
theorem test_mcPoll : shown (exec .mcPoll (machine direct 3 4 2 3 2 5 5 0 2 1 0 4 0 1)) =
    some [3, 4, 2, 0, 0, 5, 5, 0, 2, 1, 0, 8, 0, 1] := by decide

/-- V43-15: the target is not reached. -/
theorem test_mcPoll_waits : shown (exec .mcPoll (machine direct 1 4 2 3 0 4 5 0 0 1 0 4 0 1)) =
    some [1, 4, 2, 3, 0, 4, 5, 0, 0, 1, 0, 4, 0, 1] := by decide

/-- V43-16. -/
theorem test_mcAck : shown (exec .mcAck (machine direct 3 4 2 0 0 5 5 0 2 1 0 8 0 1)) =
    some [3, 4, 2, 0, 0, 5, 5, 0, 2, 1, 0, 0, 0, 1] := by decide

/-- V43-19: the word is refused in Sequencer mode. -/
theorem test_mcAck_sequencer : shown (exec .mcAck (machine sequencer 3 4 2 0 0 5 5 0 2 1 0 9 0 1)) =
    some [3, 4, 2, 0, 0, 5, 5, 0, 2, 1, 0, 9, 2, 1] := by decide

/-- V44-10: Closing starts the move with the mirrored assignment. -/
theorem test_mclStep : shown (exec .mclStep (machine sequencer 7 0x64 0x32 0 0 0x32 0x32 0 7 1 0 3 0 1)) =
    some [0, 0x64, 0x32, 3, 0, 0, 0x32, 1, 7, 1, 0, 7, 0, 1] := by decide

/-- V44-11: back to Idle, the status line off. -/
theorem test_mclStep_return : shown (exec .mclStep (machine sequencer 7 0x64 0x32 0 0 0x32 0x32 1 7 1 0 0xB 0 1)) =
    some [7, 0x64, 0x32, 0, 0, 0x32, 0x32, 1, 3, 1, 0, 0, 0, 1] := by decide

/-- V45-1: the pin keeps its level. -/
theorem test_sysReset : shown (exec .sysReset (machine direct 3 4 2 3 2 5 5 1 6 0 1 7 3 1)) =
    some [0, 0, 0, 0, 0, 0, 0, 0, 0, 0, 0, 0, 0, 0] := by decide

/-! ## Witnesses: a state and operands that meet each statement's hypotheses -/

theorem invariants_of {s : State}
    (h : HalfPeriod s ∧ CountInPeriod s ∧ EnablesFollowCall s ∧ PendingOnlyInMove s ∧ MoveBounded s ∧ UnconfiguredAtRest s)
    (q : SequencerConsistent s) : Invariants s :=
  ⟨h.1, h.2.1, h.2.2.1, h.2.2.2.1, h.2.2.2.2.1, q, h.2.2.2.2.2⟩

/-- An armed move of one step, period 0, Direct mode. -/
def armed : State := machine direct 0 0 0 3 0 0 1 0 0 1 0 4 0 1

theorem armed_invariants : Invariants armed := invariants_of (by decide) ⟨rfl, rfl⟩
theorem armed_justArmed : JustArmed armed := by decide

/-- The same move, in the overshoot hold, with a request pending. -/
def held : State := machine direct 0 0 0 3 1 2 1 0 3 1 0 4 0 1

theorem held_invariants : Invariants held := invariants_of (by decide) ⟨rfl, rfl⟩

/-- A move whose target is reached, with B pending. -/
def reached : State := machine direct 3 4 2 3 2 5 5 0 2 1 0 4 0 1

theorem reached_invariants : Invariants reached := invariants_of (by decide) ⟨rfl, rfl⟩

/-- The sequencer idle, cranking, with an angle that gives no step. -/
def cranking : State := machine { sequencer with moveAngle := 1 } 0 4 2 0 0 0 0 0 0 0 1 0 0 1

theorem cranking_invariants : Invariants cranking := invariants_of (by decide) ⟨by decide, by decide⟩

/-- A move of the sequencer's in the overshoot hold. -/
def heldOpening : State := machine sequencer 0 0 0 3 1 2 1 0 7 0 1 5 0 1

theorem heldOpening_invariants : Invariants heldOpening := invariants_of (by decide) ⟨by decide, by decide⟩

/-! ### Words, decoding and the step -/

theorem witness_DecodeOfEncodeIsTheInstruction :
    (Instr.tpgConfig 255).wellFormed = true ∧ (Instr.mcStart .reverse 65535).wellFormed = true := by decide

theorem witness_WordSpellsOperationByMatchAndMask :
    0x100000FF#32 &&& 0xFFFFFF00#32 = 0x10000000#32 ∧ 0x30010000#32 &&& 0xFFFEFFFF#32 = 0x30000000#32 ∧
    0x4001FFFF#32 &&& 0xFFFE0000#32 = 0x40000000#32 := by decide

theorem witness_DecodedWordIsItsEncoding : decode 0x4001FFFF#32 = .ok (.mcStart .reverse 65535) := by decide

theorem witness_IllegalWordSetsOnlyErrIll : ∃ (s : State) (w : Word) (rest : List Word), s.stream = w :: rest ∧
    ∀ row ∈ [(0xFFFFFF00#32, 0x10000000#32), (0xFFFFFFFF#32, 0x11000000#32), (0xFFFFFFFF#32, 0x20000000#32),
      (0xFFFFFFFF#32, 0x21000000#32), (0xFFFEFFFF#32, 0x30000000#32), (0xFFFE0000#32, 0x40000000#32),
      (0xFFFFFFFF#32, 0x41000000#32), (0xFFFFFFFF#32, 0x42000000#32), (0xFFFFFFFF#32, 0x50000000#32),
      (0xFFFFFFFF#32, 0xF0000000#32)], w &&& row.1 ≠ row.2 :=
  ⟨{ armed with stream := [0x10000100#32] }, 0x10000100#32, [], rfl, by
    intro row h
    simp only [List.mem_cons, List.not_mem_nil, or_false] at h
    rcases h with rfl | rfl | rfl | rfl | rfl | rfl | rfl | rfl | rfl | rfl <;> decide⟩

theorem witness_StepPerformsTheDecodedOperation : ∃ (s : State) (w : Word) (rest : List Word) (i : Instr),
    s.stream = w :: rest ∧ decode w = .ok i :=
  ⟨{ armed with stream := [0x11000000#32] }, _, [], .tpgTick, rfl, by decide⟩

theorem witness_SerialisedTraceLoadsItsWords :
    [0x09#8, 0x00#8, 0x00#8].length % 4 ≠ 0 ∧ [0x09#8, 0x00#8, 0x00#8, 0x40#8].length % 4 = 0 ∧
    ([] : List Byte).length % 4 = 0 := by decide

/-! ### Effects -/

theorem witness_TpgConfigSetsPeriodOnce : 255 < 256 ∧ 0 < 256 ∧ (State.powerOn direct).cfg = false ∧ armed.cfg = true :=
  ⟨by omega, by omega, rfl, rfl⟩

theorem witness_TpgTickCountsAndRecordsMatches : armed.tif = ⟨false, false⟩ ∧ held.tif ≠ ⟨false, false⟩ := by decide

/-- The last event the hold lets pass, and the first it stops. -/
theorem witness_CtdEvaServicesChannelA :
    let s := machine direct 0 4 2 3 1 5 5 0 0 1 0 4 0 1
    (s.tif.pa = true ∧ ¬ (s.fsm.mc = .run ∧ s.target.toNat + s.params.overshootMax ≤ s.stepcnt.toNat)) ∧
    (held.tif.pa = true ∧ held.fsm.mc = .run ∧ held.target.toNat + held.params.overshootMax ≤ held.stepcnt.toNat) := by
  decide

theorem witness_CtdEvbServicesChannelB :
    reached.tif.pb = true ∧ reached.tif.pa = false ∧
    ¬ (reached.fsm.mc = .run ∧ reached.target.toNat + reached.params.overshootMax ≤ reached.stepcnt.toNat) := by decide

theorem witness_CsmEdgeSamplesInvertedLevel : Level.low ≠ armed.pin ∧ Level.high = armed.pin := by decide

/-- The state, the two arithmetics, and the angles at the bounds of no step, one step, the last in range and beyond. -/
theorem witness_McStartBeginsTheMove :
    let s := machine direct 3 4 2 0 0 0 0 0 0 1 0 0 0 1
    (s.params.hostMode = .direct ∧ s.cfg = true ∧ s.fsm.mc = .idle ∧ s.params.angleArith = .mulFirst) ∧
    (1 * 200 / 360 = 0 ∧ 2 * 200 / 360 = 1 ∧ 458 * 200 / 360 = 255 - s.params.overshootMax ∧
      255 - s.params.overshootMax < 459 * 200 / 360) ∧
    ({ direct with angleArith := .divFirst } : Params).angleArith = .divFirst ∧
    (heldOpening.params.hostMode = .sequencer ∧ (State.powerOn direct).cfg = false ∧ armed.fsm.mc ≠ .idle) ∧
    (359 / 360 * 200 = 0 ∧ 719 / 360 * 200 = 200 ∧ 255 - s.params.overshootMax < 720 / 360 * 200) := by decide

theorem witness_McPollEndsTheMoveAtTarget :
    (reached.params.hostMode = .direct ∧ reached.fsm.mc = .run ∧ reached.target.toNat ≤ reached.stepcnt.toNat) ∧
    armed.stepcnt.toNat < armed.target.toNat ∧
    heldOpening.params.hostMode = .sequencer ∧ cranking.fsm.mc ≠ .run := by decide

theorem witness_McAckTakesTheReturn :
    let s := machine direct 3 4 2 0 0 5 5 0 2 1 0 8 0 1
    (s.params.hostMode = .direct ∧ s.fsm.mc = .done) ∧ heldOpening.params.hostMode = .sequencer ∧ armed.fsm.mc ≠ .done := by
  decide

theorem witness_MclIdlePollsCrank :
    cranking.params.hostMode = .sequencer ∧ cranking.cfg = true ∧ cranking.fsm.mcl = .idle ∧ cranking.csr = true ∧
    ({ cranking with csr := false } : State).csr = false := by decide

/-- FSM = 1, 5, 9: Opening with no call, one running, one returned. -/
theorem witness_MclOpeningRunsTheOpenMove :
    ∀ fsm ∈ [1, 5, 9],
      let s := machine sequencer 0 4 2 0 0 0 0 0 4 0 1 fsm 0 1
      s.params.hostMode = .sequencer ∧ s.cfg = true ∧ s.fsm.mcl = .opening ∧
      s.fsm.mc = (match fsm with | 1 => .idle | 5 => .run | _ => .done) := by decide

theorem witness_MclHoldingPollsCrank :
    ∀ csr ∈ [0, 1],
      let s := machine sequencer 0 4 2 0 0 0 0 0 4 1 csr 2 0 1
      s.params.hostMode = .sequencer ∧ s.cfg = true ∧ s.fsm.mcl = .holding ∧ s.csr = decide (csr = 1) := by decide

/-- FSM = 3, 7, 11: Closing with no call, one running, one returned. -/
theorem witness_MclClosingRunsTheReversedMove :
    ∀ fsm ∈ [3, 7, 11],
      let s := machine sequencer 0 4 2 0 0 0 0 0 4 0 1 fsm 0 1
      s.params.hostMode = .sequencer ∧ s.cfg = true ∧ s.fsm.mcl = .closing ∧
      s.fsm.mc = (match fsm with | 3 => .idle | 7 => .run | _ => .done) := by decide

theorem witness_ProtoRaisedExactlyByTheTable :
    protoRefused armed (.tpgConfig 9) ∧ protoRefused armed (.mcStart .forward 9) ∧ protoRefused heldOpening .mcPoll ∧
    protoRefused armed .mcAck ∧ protoRefused armed .mclStep ∧
    ∃ t, ¬ protoRefused { armed with err := ⟨false, true, false⟩ } .tpgTick ∧
      exec .tpgTick { armed with err := ⟨false, true, false⟩ } = .next t ∧ t.err.proto = true :=
  ⟨rfl, .inr (.inr (by decide)), .inl rfl, .inr (by decide), .inl rfl, _, id, rfl, rfl⟩

/-! ### Which operations have a step -/

theorem witness_OnlyTimerAndIrqCanLackAStep :
    (Instr.csmEdge .low).agent = .env ∧ Instr.mcPoll.agent = .fg ∧ Instr.sysReset.agent = .reset ∧
    stop (exec .tpgTick held) = some .tickNotEnabled ∧ stop (exec .ctdEva held) = some .evaNotEnabled ∧
    stop (exec .ctdEvb held) = some .evbNotEnabled := by decide

/-- In either HOST_MODE. -/
theorem witness_HoldIsLiftedByThePoll :
    (Invariants held ∧ held.fsm.mc = .run ∧ held.target.toNat + held.params.overshootMax ≤ held.stepcnt.toNat) ∧
    (Invariants heldOpening ∧ heldOpening.fsm.mc = .run ∧
      heldOpening.target.toNat + heldOpening.params.overshootMax ≤ heldOpening.stepcnt.toNat) :=
  ⟨⟨held_invariants, by decide⟩, heldOpening_invariants, by decide⟩

/-! ### Observation and power-on -/

theorem witness_RegReadIsTheRegisterMap : 0x0E ≤ (0x0E#8).toNat ∧ 0x0E ≤ (0xFF#8).toNat := by decide

theorem witness_RegistersAreTheWholeState :
    (∀ n : Byte, regRead armed n = regRead armed n) ∧ armed.stream = armed.stream ∧ armed.params = armed.params :=
  ⟨fun _ => rfl, rfl, rfl⟩

/-- The machine not configured, after the pin went low and a word was refused. -/
def unconfigured : State := machine direct 0 0 0 0 0 0 0 0 0 0 1 0 2 0

theorem unconfigured_invariants : Invariants unconfigured := invariants_of (by decide) ⟨rfl, rfl⟩

/-- An operation of each of the statement's cases. -/
theorem witness_PowerOnIsQuiescentUntilConfigured :
    Invariants unconfigured ∧ unconfigured.cfg = false ∧ (∃ t, exec .mclStep unconfigured = .next t) ∧
    (∃ t, exec (.tpgConfig 4) unconfigured = .next t ∧ t.cfg = true) ∧
    (∃ t, exec (.csmEdge .high) unconfigured = .next t ∧ t ≠ unconfigured) ∧
    ∃ t, exec .sysReset unconfigured = .next t ∧ t.csr ≠ unconfigured.csr :=
  ⟨unconfigured_invariants, rfl, ⟨_, rfl⟩, ⟨_, rfl, rfl⟩, ⟨_, rfl, by decide⟩, _, rfl, by decide⟩

/-! ### Whole-machine rules -/

theorem witness_InvariantsKeptByEveryStep :
    ∃ s t, Invariants s ∧ step s = .next t ∧ t.fsm.mc = .done :=
  ⟨{ reached with stream := [0x41000000#32] }, _, ⟨rfl, by decide, rfl, by decide, by decide, ⟨rfl, rfl⟩, by decide⟩, rfl, rfl⟩

/-- Every register is changed by some operation that the statement allows it to be changed by. -/
theorem witness_RegistersWrittenOnlyByTheirOwners :
    changes State.tcnt .tpgTick (machine direct 3 4 2 3 0 5 5 0 2 1 0 4 0 1) = true ∧
    changes State.ocra (.tpgConfig 4) (State.powerOn direct) = true ∧
    changes State.ocrb (.tpgConfig 4) (State.powerOn direct) = true ∧
    changes State.cfg (.tpgConfig 4) (State.powerOn direct) = true ∧
    changes State.tie .mcPoll reached = true ∧
    changes State.tif .ctdEvb reached = true ∧
    changes State.stepcnt .ctdEvb reached = true ∧
    changes State.target (.mcStart .forward 9) { armed with fsm := ⟨.idle, .idle⟩ } = true ∧
    changes State.map (.mcStart .reverse 9) { armed with fsm := ⟨.idle, .idle⟩ } = true ∧
    changes (fun s => s.port.coil0) .ctdEva (machine direct 0 4 2 3 1 1 5 0 2 1 0 4 0 1) = true ∧
    changes (fun s => s.port.coil1) .ctdEvb reached = true ∧
    changes (fun s => s.port.status) .mclStep cranking = true ∧
    changes State.pin (.csmEdge .low) armed = true ∧
    changes State.csr (.csmEdge .low) armed = true ∧
    changes (fun s => s.fsm.mcl) .mclStep cranking = true ∧
    changes (fun s => s.fsm.mc) .mcPoll reached = true ∧
    changes State.err .mcAck reached = true := by decide

theorem witness_AgentsKeepToTheirState :
    (∃ t, exec (.csmEdge .low) armed = .next t ∧ (Instr.csmEdge .low).agent = .env) ∧
    (∃ t, exec .tpgTick armed = .next t ∧ Instr.tpgTick.agent = .timer) ∧
    (∃ t, exec .ctdEvb reached = .next t ∧ Instr.ctdEvb.agent = .irq) ∧
    ∃ t, exec .mcPoll reached = .next t ∧ Instr.mcPoll.agent = .fg :=
  ⟨⟨_, rfl, rfl⟩, ⟨_, rfl, rfl⟩, ⟨_, rfl, rfl⟩, _, rfl, rfl⟩

theorem witness_ScheduleAndParametersUntouched : ∃ t, exec .sysReset reached = .next t := ⟨_, rfl⟩

theorem witness_ErrorBitsAreSticky :
    let s : State := { reached with err := ⟨true, true, true⟩, stream := [0x41000000#32] }
    ∃ t, step s = .next t ∧ s.stream.head? ≠ some 0xF0000000#32 ∧ ∀ b ∈ [ErrBit.range, .proto, .ill], s.err.bit b = true :=
  ⟨_, rfl, by decide, by decide⟩

theorem witness_AtMostOneErrorPerStep :
    (∃ t, step { armed with stream := [0x00000000#32] } = .next t ∧ armed.err.bit .ill = false ∧ t.err.bit .ill = true) ∧
    ∃ t, Instr.tpgTick.agent ≠ .fg ∧ exec .tpgTick { armed with err := ⟨false, false, true⟩ } = .next t ∧
      t.err.bit .ill = true :=
  ⟨⟨_, rfl, rfl, rfl⟩, _, by decide, rfl, rfl⟩

theorem witness_NoOperationCancelsAMove :
    armed.fsm.mc = .run ∧
    (∃ t, reached.fsm.mc = .run ∧ exec .mcPoll reached = .next t ∧ t.fsm.mc ≠ .run) ∧
    ∃ t, reached.fsm.mc = .run ∧ exec .sysReset reached = .next t ∧ t.fsm.mc ≠ .run :=
  ⟨rfl, ⟨_, rfl, rfl, by decide⟩, _, rfl, rfl, by decide⟩

theorem witness_InversionLawHoldsFromTheFirstEdge :
    Level.low ≠ armed.pin ∧ ∃ t, Instr.tpgTick ≠ .sysReset ∧ (armed.csr = true ↔ armed.pin = .low) ∧
      exec .tpgTick armed = .next t :=
  ⟨by decide, _, by decide, by decide, rfl⟩

theorem witness_CrankIsFalseAfterResetUntilAnEdge :
    ∃ t, ({ armed with pin := .low } : State).pin = .low ∧ ({ armed with pin := .low } : State).csr = false ∧
      Instr.csmEdge .low ≠ .csmEdge .high ∧ exec (.csmEdge .low) { armed with pin := .low } = .next t :=
  ⟨_, rfl, rfl, by decide, rfl⟩

theorem witness_NoOperationReadsErr :
    (∃ t, exec .mcPoll reached = .next t) ∧ exec .ctdEva reached = .fault .evaNotEnabled := ⟨⟨_, rfl⟩, rfl⟩

theorem witness_CrankReadOnlyByTheSequencer :
    (Instr.mcPoll ≠ .mclStep ∧ (∀ l, Instr.mcPoll ≠ .csmEdge l) ∧ ∃ t, exec .mcPoll reached = .next t) ∧
    Instr.ctdEva ≠ .mclStep ∧ (∀ l, Instr.ctdEva ≠ .csmEdge l) ∧ exec .ctdEva reached = .fault .evaNotEnabled :=
  ⟨⟨by decide, by simp, _, rfl⟩, by decide, by simp, rfl⟩

theorem witness_TargetUnreadOutsideAMove :
    cranking.fsm.mc ≠ .run ∧ (∃ t, exec .tpgTick cranking = .next t) ∧ exec .ctdEva cranking = .fault .evaNotEnabled :=
  ⟨by decide, ⟨_, rfl⟩, rfl⟩

theorem witness_PinChangeCommutesWithHandlers :
    (Instr.ctdEvb = .ctdEva ∨ Instr.ctdEvb = .ctdEvb) ∧
    ∃ t u, exec .ctdEvb reached = .next t ∧ exec (.csmEdge .low) t = .next u := ⟨.inr rfl, _, _, rfl, rfl⟩

/-- Each of the four transitions. -/
theorem witness_SequencerFollowsItsFourStates :
    changes (fun s => s.fsm.mcl) .mclStep cranking = true ∧
    changes (fun s => s.fsm.mcl) .mclStep (machine sequencer 0 4 2 0 0 0 0 0 4 0 1 9 0 1) = true ∧
    changes (fun s => s.fsm.mcl) .mclStep (machine sequencer 0 4 2 0 0 0 0 0 4 1 0 2 0 1) = true ∧
    changes (fun s => s.fsm.mcl) .mclStep (machine sequencer 0 4 2 0 0 0 0 1 4 1 0 11 0 1) = true := by decide

theorem witness_StatusMirrorsTheCycle :
    (cranking.port.status = true ↔ cranking.fsm.mcl ≠ .idle) ∧ (heldOpening.port.status = true ↔ heldOpening.fsm.mcl ≠ .idle) ∧
    (∃ t, exec .mclStep cranking = .next t) ∧ ∃ t, exec .sysReset heldOpening = .next t :=
  ⟨by decide, by decide, ⟨_, rfl⟩, _, rfl⟩

/-! ### Moves -/

theorem witness_NewMoveStartsFromClearedCounters :
    ∃ t, exec (.mcStart .forward 458) (machine direct 3 4 2 0 0 9 9 0 0 1 0 0 0 1) = .next t ∧
      (machine direct 3 4 2 0 0 9 9 0 0 1 0 0 0 1).fsm.mc ≠ .run ∧ t.fsm.mc = .run := ⟨_, rfl, by decide, rfl⟩

theorem witness_AnglesThatMoveAndAreInRange :
    Params.reference.overshootMax ≤ 1 ∧ Params.reference.overshootMax = 1 ∧
    ({ Params.reference with overshootMax := 0 } : Params).overshootMax = 0 := by decide

theorem witness_MoveEndsWithinOvershootOfTarget :
    (∃ t, Invariants reached ∧ reached.fsm.mc = .run ∧ exec .mcPoll reached = .next t ∧ t.fsm.mc = .done) ∧
    ∃ t, Invariants heldOpening ∧ heldOpening.fsm.mc = .run ∧ exec .mclStep heldOpening = .next t ∧ t.fsm.mc = .done :=
  ⟨⟨_, reached_invariants, rfl, rfl, rfl⟩, _, heldOpening_invariants, rfl, rfl, rfl⟩

theorem witness_BothFinalCountsAreAdmitted :
    Invariants reached ∧ reached.params.hostMode = .direct ∧ 1 ≤ reached.params.overshootMax ∧ reached.fsm.mc = .run ∧
    reached.stepcnt = reached.target ∧ reached.tif = ⟨false, true⟩ := ⟨reached_invariants, by decide⟩

theorem witness_StepCounterIsMonotoneInAMove :
    ∃ t, Invariants reached ∧ reached.tie ≠ ⟨false, false⟩ ∧ Instr.ctdEvb ≠ .sysReset ∧ exec .ctdEvb reached = .next t :=
  ⟨_, reached_invariants, by decide, by decide, rfl⟩

/-- A tick, both handlers and the poll, presented. -/
def armedRun : State := { armed with stream := [0x11000000#32, 0x20000000#32, 0x21000000#32, 0x41000000#32] }

theorem armedRun_invariants : Invariants armedRun := invariants_of (by decide) ⟨rfl, rfl⟩

/-- The state a step leaves, where it is taken. -/
def stepped (s : State) : State :=
  match step s with
  | .next t => t
  | _ => s

theorem moveRun_stepped {s₀ s : State} {a b : Nat} (h : MoveRun s₀ a b s) (hr : s.fsm.mc = .run)
    (hs : step s = .next (stepped s)) (hi : (stepped s).fsm.mc ≠ .idle) :
    MoveRun s₀ (eventsWith .ctdEva s a) (eventsWith .ctdEvb s b) (stepped s) := .step h hr hs hi

/-- The move ends with one event on each channel. -/
theorem armedRun_run : MoveRun armedRun 1 1 (stepped (stepped (stepped (stepped armedRun)))) :=
  moveRun_stepped (moveRun_stepped (moveRun_stepped (moveRun_stepped .start rfl rfl (by decide))
    rfl rfl (by decide)) rfl rfl (by decide)) rfl rfl (by decide)

theorem witness_ChannelsAlternateInEveryMove :
    ∃ s, Invariants armedRun ∧ JustArmed armedRun ∧ MoveRun armedRun 1 1 s ∧ s.fsm.mc = .done :=
  ⟨_, armedRun_invariants, by decide, armedRun_run, rfl⟩

/-- The move back, with the reversed assignment. -/
def armedBack : State := { armedRun with map := .reverse, port := ⟨true, true, false⟩ }

theorem armedBack_run : MoveRun armedBack 1 1 (stepped (stepped (stepped (stepped armedBack)))) :=
  moveRun_stepped (moveRun_stepped (moveRun_stepped (moveRun_stepped .start rfl rfl (by decide))
    rfl rfl (by decide)) rfl rfl (by decide)) rfl rfl (by decide)

theorem witness_OppositeMovesRestoreLinesIffSumIsMultipleOfFour :
    ∃ s₁ s₃, Invariants armedRun ∧ JustArmed armedRun ∧ MoveRun armedRun 1 1 s₁ ∧
      Invariants armedBack ∧ JustArmed armedBack ∧ MoveRun armedBack 1 1 s₃ ∧
      armedBack.ocra = armedRun.ocra ∧ armedBack.map = armedRun.map.flip ∧
      armedBack.port.coil0 = s₁.port.coil0 ∧ armedBack.port.coil1 = s₁.port.coil1 :=
  ⟨_, _, armedRun_invariants, by decide, armedRun_run, invariants_of (by decide) ⟨rfl, rfl⟩, by decide, armedBack_run,
    rfl, rfl, rfl, rfl⟩

/-- At the last tick the hold lets pass. -/
theorem witness_EventsFallOnTheTicksOfTheLaw :
    Invariants armed ∧ JustArmed armed ∧
    eventCount armed.ocra.toNat 1 = armed.target.toNat + armed.params.overshootMax :=
  ⟨armed_invariants, by decide, by decide⟩

theorem witness_EagerMoveEndsAfterTheTargetTick : Invariants armed ∧ JustArmed armed := ⟨armed_invariants, by decide⟩

/-- A fair schedule of the armed move: a tick, both handlers, the poll, then ticks for ever. -/
def fairOps : Nat → Instr
  | 1 => .ctdEva
  | 2 => .ctdEvb
  | 3 => .mcPoll
  | _ => .tpgTick

/-- Its states. -/
def fairStates : Nat → State
  | 0 => armed
  | 1 => { armed with tif := ⟨true, true⟩ }
  | 2 => { armed with tif := ⟨false, true⟩, port := ⟨true, false, false⟩, stepcnt := 1#8 }
  | 3 => { armed with port := ⟨true, true, false⟩, stepcnt := 2#8 }
  | _ => { armed with port := ⟨true, true, false⟩, stepcnt := 2#8, tie := ⟨false, false⟩, fsm := ⟨.idle, .done⟩ }

theorem fair_execution : IsExecution fairOps fairStates
  | 0 | 1 | 2 | 3 => rfl
  | _ + 4 => rfl

theorem witness_FairScheduleEndsEveryMove :
    IsExecution fairOps fairStates ∧ (∀ n, fairOps n ≠ .sysReset) ∧
    WeaklyFair tickEnabled .tpgTick fairOps fairStates ∧
    WeaklyFair evaEnabled .ctdEva fairOps fairStates ∧ WeaklyFair evbEnabled .ctdEvb fairOps fairStates ∧
    WeaklyFair moveRunning (pollingOperation (fairStates 0).params.hostMode) fairOps fairStates ∧
    Invariants (fairStates 0) ∧ (fairStates 0).fsm.mc = .run := by
  refine ⟨fair_execution, ?_, ?_, ?_, ?_, ?_, armed_invariants, rfl⟩
  · intro n; unfold fairOps; split <;> simp
  · exact fun n _ => ⟨n + 4, by omega, rfl⟩
  · exact fun n h => Bool.noConfusion (show false = true from h (n + 4) (by omega))
  · exact fun n h => Bool.noConfusion (show false = true from h (n + 4) (by omega))
  · exact fun n h => Bool.noConfusion (show false = true from h (n + 4) (by omega))

/-- R152's premises alone do not end a move: with B pending and the target not reached, polling for ever is an execution in
which TIMER and the foreground are weakly fair, and the move runs on (log entry 15). -/
theorem test_polling_alone_is_fair_and_endless :
    let s := machine direct 3 4 2 3 2 0 5 0 0 1 0 4 0 1
    IsExecution (fun _ => .mcPoll) (fun _ => s) ∧ WeaklyFair tickEnabled .tpgTick (fun _ => .mcPoll) (fun _ => s) ∧
    WeaklyFair moveRunning .mcPoll (fun _ => .mcPoll) (fun _ => s) ∧ s.fsm.mc = .run :=
  ⟨fun _ => rfl, fun n h => Bool.noConfusion (show false = true from h n (Nat.le_refl n)), fun n _ => ⟨n, Nat.le_refl n, rfl⟩, rfl⟩

/-! ### Outside a move -/

theorem witness_RestingStateTogglesNothing :
    Resting cranking ∧ (∃ t, exec .tpgTick cranking = .next t) ∧ ∃ t, exec .mclStep cranking = .next t :=
  ⟨by decide, ⟨_, rfl⟩, _, rfl⟩

/-- At the end of the period. -/
theorem witness_DisabledTimerCyclesThroughThePeriod :
    let s := machine direct 4 4 2 0 0 0 0 0 0 1 0 0 0 1
    CountInPeriod s ∧ Quiescent s := by decide

theorem witness_ZeroStepCycleTogglesNothing :
    Invariants cranking ∧ cranking.params.hostMode = .sequencer ∧ cranking.cfg = true ∧ cranking.fsm.mcl = .idle ∧
    cranking.pin = .low ∧ cranking.csr = true ∧
    stepsOfAngle cranking.params.angleArith cranking.params.moveAngle.val = 0 := ⟨cranking_invariants, by decide⟩

/-- The machine configured with period 0, in Direct mode, no call in progress. -/
def ready : State := machine direct 0 0 0 0 0 0 0 0 0 1 0 0 0 1

theorem ready_invariants : Invariants ready := invariants_of (by decide) ⟨rfl, rfl⟩

/-- A tick that has a step and one that has none; a sequencer step; a move of one step whose loop ends at its second poll. -/
theorem witness_PseudoOperationsAddNoBehaviour :
    (∃ t, exec .tpgTick armed = .next t) ∧ (∀ t, exec .tpgTick held ≠ .next t) ∧ (∃ t, exec .mclStep armed = .next t) ∧
    ∃ t u v, exec (.mcStart .forward 2) ready = .next t ∧
      PolledToDone t [.mcPoll, .tpgTick, .ctdEva, .ctdEvb, .mcPoll] u ∧ exec .mcAck u = .next v ∧
      [Instr.mcPoll, .tpgTick, .ctdEva, .ctdEvb, .mcPoll].count .mcPoll ≤ 2 :=
  ⟨⟨_, rfl⟩, fun _ => nofun, ⟨_, rfl⟩, _, _, _, rfl, .running (t := armed) rfl rfl (.last rfl rfl), rfl, by decide⟩

/-- R59's `move` of one step, period 0: the operations in their order. -/
theorem test_move : (move 2 .forward 2 ready).ops =
    [.mcStart .forward 2, .mcPoll, .tpgTick, .ctdEva, .ctdEvb, .mcPoll, .mcAck] := by decide

/-- Angles of one step, of no step and out of range. -/
theorem witness_EagerMoveRunsToItsTarget :
    Invariants ready ∧ ready.params.hostMode = .direct ∧ ready.cfg = true ∧ ready.fsm.mc = .idle ∧
    (1 ≤ stepsOfAngle ready.params.angleArith 2 ∧ stepsOfAngle ready.params.angleArith 458 = ready.params.targetMax ∧
      eventTick ready.ocra.toNat (stepsOfAngle ready.params.angleArith 2) < 2) ∧
    stepsOfAngle ready.params.angleArith 1 = 0 ∧
    ready.params.targetMax < stepsOfAngle ready.params.angleArith 459 := ⟨ready_invariants, by decide⟩

end Sys2Proof.Tests
end

section
/-! PROOFS. Family 00_scope.md: what a step performs (R8), and which operations have one (R9). -/

namespace Sys2Proof.Machine

/-! ## The step -/

/-- A head word that spells an operation is taken from the stream and the operation performed (R8, R54). -/
theorem step_of_decode_ok {s : State} {w : Word} {rest : List Word} {i : Instr}
    (hs : s.stream = w :: rest) (hd : decode w = .ok i) : step s = exec i { s with stream := rest } := by
  have ht : takeWord s = some (w, { s with stream := rest }) := takeWord_eq_some.2 ⟨rest, hs, rfl⟩
  simp only [step, ht, hd]

/-! ## Outcome "Not enabled" (R9) -/

/-- The operations that are not enabled in a state, each with the fault the model names it by (log entry 4). -/
inductive NotEnabled (s : State) : Instr → Fault → Prop where
  | tick (h : tickEnabled s = false) : NotEnabled s .tpgTick .tickNotEnabled
  | eva (h : evaEnabled s = false) : NotEnabled s .ctdEva .evaNotEnabled
  | evb (h : evbEnabled s = false) : NotEnabled s .ctdEvb .evbNotEnabled

/-- An operation answers a next state or, where it is not enabled, its fault; there is no third outcome. -/
theorem exec_next_or_notEnabled (i : Instr) (s : State) :
    (∃ t, exec i s = .next t) ∨ ∃ f, NotEnabled s i f ∧ exec i s = .fault f := by
  cases i with
  | tpgTick =>
    cases he : tickEnabled s
    · exact .inr ⟨_, .tick he, by simp [exec, execTpgTick, he]⟩
    · exact .inl ⟨_, exec_tpgTick_next.2 ⟨he, rfl⟩⟩
  | ctdEva =>
    cases he : evaEnabled s
    · exact .inr ⟨_, .eva he, by simp [exec, execCtdEva, he]⟩
    · exact .inl ⟨_, exec_ctdEva_next.2 ⟨he, rfl⟩⟩
  | ctdEvb =>
    cases he : evbEnabled s
    · exact .inr ⟨_, .evb he, by simp [exec, execCtdEvb, he]⟩
    · exact .inl ⟨_, exec_ctdEvb_next.2 ⟨he, rfl⟩⟩
  | tpgConfig p => exact .inl ⟨_, exec_tpgConfig p s⟩
  | csmEdge l => exact .inl ⟨_, exec_csmEdge l s⟩
  | mcStart d angle => exact .inl ⟨_, exec_mcStart d angle s⟩
  | mcPoll => exact .inl ⟨_, exec_mcPoll s⟩
  | mcAck => exact .inl ⟨_, exec_mcAck s⟩
  | mclStep => exact .inl ⟨_, exec_mclStep s⟩
  | sysReset => exact .inl ⟨_, exec_sysReset s⟩

theorem NotEnabled.agent_timer_or_irq {s : State} {i : Instr} {f : Fault} (h : NotEnabled s i f) :
    i.agent = .timer ∨ i.agent = .irq := by
  cases h with
  | tick => exact .inl rfl
  | eva => exact .inr rfl
  | evb => exact .inr rfl

theorem exec_fault_notEnabled {i : Instr} {s : State} {f : Fault} (h : exec i s = .fault f) : NotEnabled s i f := by
  rcases exec_next_or_notEnabled i s with ⟨t, ht⟩ | ⟨g, hn, hg⟩
  · simp [ht] at h
  · obtain rfl : g = f := by simpa [hg] using h
    exact hn

theorem exec_ne_refused (i : Instr) (s : State) (r : Refusal) : exec i s ≠ .refused r := by
  rcases exec_next_or_notEnabled i s with ⟨t, ht⟩ | ⟨f, -, hf⟩
  · simp [ht]
  · simp [hf]

theorem exec_next_of_agent {i : Instr} (h : i.agent = .env ∨ i.agent = .fg ∨ i.agent = .reset) (s : State) :
    ∃ t, exec i s = .next t := by
  refine (exec_next_or_notEnabled i s).resolve_right fun ⟨f, hn, _⟩ => ?_
  rcases hn.agent_timer_or_irq with ha | ha <;> simp [ha] at h

/-! ## The obligations -/

/-- Settles O23, from the two outcomes an operation can have. -/
theorem onlyTimerAndIrqCanLackAStep : Obligations.OnlyTimerAndIrqCanLackAStep := by
  refine fun i s => ⟨fun h => exec_next_of_agent h s, exec_ne_refused i s, fun f h => ?_⟩
  cases exec_fault_notEnabled h with
  | tick => exact .inl ⟨rfl, rfl⟩
  | eva => exact .inr (.inl ⟨rfl, rfl⟩)
  | evb => exact .inr (.inr ⟨rfl, rfl⟩)

/-- Settles O6, which is the step's equation on a head word that decodes. -/
theorem stepPerformsTheDecodedOperation : Obligations.StepPerformsTheDecodedOperation :=
  fun _ _ _ _ => step_of_decode_ok

end Sys2Proof.Machine
end

section
/-! PROOFS. Family 10_state.md: R35's invariants, the bytes RegRead shows, who writes what (R34), and the registers no
operation reads (ERR, R28; TARGET outside a move, R22). -/

namespace Sys2Proof.Machine

/-! ## The invariants of R35: at power-on -/

/-- The power-on values have the invariants whatever the level of the pin, so SYS.RESET's do too. -/
theorem invariants_powerOn (p : Params) (level : Level) (words : List Word) :
    Invariants { State.powerOn p with pin := level, stream := words } where
  halfPeriod := by simp [HalfPeriod, State.powerOn]
  count := Nat.le_refl _
  enables := rfl
  pending := fun h => absurd rfl h
  bounded := nofun
  sequencer := by cases h : p.hostMode <;> simp [SequencerConsistent, State.powerOn, h]
  unconfigured := fun _ => ⟨rfl, rfl, rfl, rfl, rfl⟩

/-- Settles O29, with the pin at CRANK_PIN_RESET. -/
theorem invariantsHoldAtPowerOn : Obligations.InvariantsHoldAtPowerOn :=
  fun p words => invariants_powerOn p p.crankPinReset words

/-! ## What the invariants say of a state -/

section
variable {s t : State}

theorem Invariants.quiescent (h : Invariants s) (hm : s.fsm.mc ≠ .run) : Quiescent s :=
  ⟨h.enables.trans (if_neg hm), not_not.1 fun hf => hm (h.pending hf)⟩

theorem Invariants.configured (h : Invariants s) (hm : s.fsm.mc ≠ .idle) : s.cfg = true := by
  refine Bool.eq_true_of_not_eq_false fun hc => hm ?_
  obtain ⟨-, -, hf, -, -⟩ := h.unconfigured hc
  rw [hf]

theorem Invariants.running_of_pending (h : Invariants s) {ch : Channel} (hp : s.tif.pending ch = true) :
    s.fsm.mc = .run :=
  h.pending fun hf => by cases ch <;> simp [hf, Tif.pending] at hp

theorem sequencerConsistent_sequencer (hq : s.params.hostMode = .sequencer) :
    SequencerConsistent s ↔ (s.fsm.mc ≠ .idle → s.fsm.mcl = .opening ∨ s.fsm.mcl = .closing) ∧
      (s.port.status = true ↔ s.fsm.mcl ≠ .idle) := by
  simp [SequencerConsistent, hq]

theorem sequencerConsistent_direct (hd : s.params.hostMode = .direct) :
    SequencerConsistent s ↔ s.fsm.mcl = .idle ∧ s.port.status = false := by
  simp [SequencerConsistent, hd]

/-- In HOST_MODE Sequencer no call is in progress in Idle and Holding. -/
theorem Invariants.call_idle (h : Invariants s) (hq : s.params.hostMode = .sequencer)
    (hl : s.fsm.mcl = .idle ∨ s.fsm.mcl = .holding) : s.fsm.mc = .idle := by
  refine not_not.1 fun hm => ?_
  rcases ((sequencerConsistent_sequencer hq).1 h.sequencer).1 hm with e | e <;> simp [e] at hl

theorem Invariants.status_on (h : Invariants s) (hq : s.params.hostMode = .sequencer) :
    s.port.status = true ↔ s.fsm.mcl ≠ .idle :=
  ((sequencerConsistent_sequencer hq).1 h.sequencer).2

/-! ## Updates that keep them -/

/-- Item 7 where the sequencer's state and the status line stay: only a call in progress asks for more. -/
theorem SequencerConsistent.of_sameSequencer (h : SequencerConsistent s) (hp : t.params = s.params)
    (hl : t.fsm.mcl = s.fsm.mcl) (hst : t.port.status = s.port.status)
    (hc : s.params.hostMode = .sequencer → t.fsm.mc ≠ .idle → s.fsm.mcl = .opening ∨ s.fsm.mcl = .closing) :
    SequencerConsistent t := by
  cases hm : s.params.hostMode with
  | sequencer =>
    rw [sequencerConsistent_sequencer (hp ▸ hm), hl, hst]
    exact ⟨hc hm, ((sequencerConsistent_sequencer hm).1 h).2⟩
  | direct =>
    rw [sequencerConsistent_direct (hp ▸ hm), hl, hst]
    exact (sequencerConsistent_direct hm).1 h

/-- No invariant speaks of PIN, CSR, ERR or the words presented. -/
theorem Invariants.of_unconstrained (h : Invariants s) (l : Level) (c : Bool) (e : Err) (ws : List Word) :
    Invariants { s with pin := l, csr := c, err := e, stream := ws } where
  halfPeriod := h.halfPeriod
  count := h.count
  enables := h.enables
  pending := h.pending
  bounded := h.bounded
  sequencer := h.sequencer
  unconfigured := h.unconfigured

theorem Invariants.raiseErr (h : Invariants s) (b : ErrBit) : Invariants (raiseErr b s) :=
  h.of_unconstrained s.pin s.csr (s.err.set b) s.stream

theorem Invariants.samplePin (h : Invariants s) (l : Level) : Invariants (samplePin l s) :=
  h.of_unconstrained l (crankOfLevel l) s.err s.stream

theorem compareB_toNat (p : Nat) : (compareB p).toNat = (compareA p).toNat / 2 := by
  simp [compareB, Nat.shiftRight_eq_div_pow]

/-- Before the configuration TCNT is 0, so it is within any period. -/
theorem Invariants.setPeriod (h : Invariants s) (hc : s.cfg = false) (p : Nat) : Invariants (setPeriod p s) where
  halfPeriod := compareB_toNat p
  count := by
    obtain ⟨ha, -⟩ := h.unconfigured hc
    have ht : s.tcnt.toNat ≤ 0 := by simpa [ha] using h.count
    exact ht.trans (Nat.zero_le _)
  enables := h.enables
  pending := h.pending
  bounded := h.bounded
  sequencer := h.sequencer
  unconfigured := nofun

theorem nextCount_le (h : CountInPeriod s) : (nextCount s).toNat ≤ s.ocra.toNat := by
  unfold nextCount
  split
  next => simp
  next hm =>
    have hne : s.tcnt.toNat ≠ s.ocra.toNat := fun e => hm ((matchA_iff s).2 (BitVec.eq_of_toNat_eq e))
    have hle : s.tcnt.toNat ≤ s.ocra.toNat := h
    bv_omega

/-- A tick raises an event only where a channel is enabled, which is in a move. -/
theorem Invariants.countTick (h : Invariants s) : Invariants (countTick s) where
  halfPeriod := h.halfPeriod
  count := nextCount_le h.count
  enables := h.enables
  pending := fun hp => not_not.1 fun hm => hp <| by
    have htie : s.tie = ⟨false, false⟩ := (h.quiescent hm).1
    simp [matchPending, htie]
  bounded := h.bounded
  sequencer := h.sequencer
  unconfigured := h.unconfigured

/-- A handler runs only in a move and outside the hold, so the count it increments stays within the bound. -/
theorem Invariants.serviceEvent (h : Invariants s) {ch : Channel} (hp : s.tif.pending ch = true)
    (hh : ¬ hold s = true) : Invariants (serviceEvent ch s) where
  halfPeriod := h.halfPeriod
  count := h.count
  enables := h.enables
  pending := fun _ => h.running_of_pending hp
  bounded := fun hm => by
    obtain ⟨h1, h2, h3, h4⟩ := h.bounded hm
    have hlt : s.stepcnt.toNat < s.target.toNat + s.params.overshootMax :=
      not_le.1 fun hle => hh ((hold_iff s).2 ⟨hm, hle⟩)
    refine ⟨h1, h2, ?_, h4⟩
    simp only [serviceEvent_stepcnt, serviceEvent_target, serviceEvent_params]
    bv_omega
  sequencer := h.sequencer.of_sameSequencer rfl rfl (by simp)
    fun hq => ((sequencerConsistent_sequencer hq).1 h.sequencer).1
  unconfigured := fun hc => by
    have hrun := h.running_of_pending hp
    have hcfg := h.configured (by simp [hrun])
    exact absurd hc (by simp [hcfg])

/-- A configured machine at rest has the invariants where its timer is as it was and the sequencer is consistent. -/
theorem Invariants.of_atRest (h : Invariants s) (hc : t.cfg = true) (hm : t.fsm.mc ≠ .run) (hq : Quiescent t)
    (htimer : t.tcnt = s.tcnt ∧ t.ocra = s.ocra ∧ t.ocrb = s.ocrb) (hseq : SequencerConsistent t) :
    Invariants t where
  halfPeriod := by
    obtain ⟨-, ha, hb⟩ := htimer
    simpa [HalfPeriod, ha, hb] using h.halfPeriod
  count := by
    obtain ⟨hn, ha, -⟩ := htimer
    simpa [CountInPeriod, hn, ha] using h.count
  enables := hq.1.trans (if_neg hm).symm
  pending := fun hp => absurd hq.2 hp
  bounded := fun hr => absurd hr hm
  sequencer := hseq
  unconfigured := by simp [hc]

theorem setTarget_toNat {n : Nat} (h : n ≤ 255) : (setTarget n s).target.toNat = n :=
  (BitVec.toNat_ofNat n 8).trans (Nat.mod_eq_of_lt (Nat.lt_succ_of_le h))

/-- A move begins from a configured machine with no call in progress; it is armed within the bound or at rest. -/
theorem Invariants.beginMove (h : Invariants s) (hc : s.cfg = true) (hm : s.fsm.mc = .idle)
    (hl : s.params.hostMode = .sequencer → s.fsm.mcl = .opening ∨ s.fsm.mcl = .closing) (d : Dir) (angle : Nat) :
    Invariants (beginMove d angle s) := by
  have hq : Quiescent s := h.quiescent (by simp [hm])
  rcases beginMove_cases d angle s with ⟨-, e⟩ | ⟨-, e⟩ | ⟨h1, h2, e⟩ <;> rw [e]
  · exact h.of_atRest hc (by simp) hq ⟨rfl, rfl, rfl⟩ (h.sequencer.of_sameSequencer rfl rfl rfl fun hs _ => hl hs)
  · exact h.of_atRest hc (by simp) hq ⟨rfl, rfl, rfl⟩ (h.sequencer.of_sameSequencer rfl rfl rfl fun hs _ => hl hs)
  · exact
    { halfPeriod := h.halfPeriod
      count := Nat.zero_le _
      enables := rfl
      pending := fun _ => rfl
      bounded := fun _ => by
        have hmax : s.params.targetMax = 255 - s.params.overshootMax := rfl
        have hn := setTarget_toNat (s := clearSteps (ctdInstall d s)) (h2.trans (Nat.sub_le _ _))
        simp only [setMc_target, tpgIrqEnable_target, tpgClear_target, hn]
        exact ⟨h1, h2, Nat.zero_le _, by change _ + s.params.overshootMax ≤ 255; omega⟩
      sequencer := h.sequencer.of_sameSequencer rfl rfl rfl fun hs _ => hl hs
      unconfigured := by simp [hc] }

/-- The end of a move leaves the machine at rest in MC_DONE. -/
theorem Invariants.endMove (h : Invariants s) (hm : s.fsm.mc = .run)
    (hl : s.params.hostMode = .sequencer → s.fsm.mcl = .opening ∨ s.fsm.mcl = .closing) :
    Invariants (setMc .done (tpgIrqDisable s)) :=
  h.of_atRest (h.configured (by simp [hm])) (by simp) ⟨rfl, rfl⟩ ⟨rfl, rfl, rfl⟩
    (h.sequencer.of_sameSequencer rfl rfl rfl fun hs _ => hl hs)

/-- A transition of the sequencer, after which no call is in progress and the status line shows the new state. -/
theorem Invariants.of_transition (h : Invariants s) (hq : s.params.hostMode = .sequencer) (hc : s.cfg = true)
    (hm : s.fsm.mc ≠ .run) {m : Mcl} {c : Mc} {b : Bool} (hidle : c = .idle) (hst : b = true ↔ m ≠ .idle) :
    Invariants { s with fsm := ⟨m, c⟩, port := { s.port with status := b } } := by
  subst hidle
  exact h.of_atRest hc nofun (h.quiescent hm) ⟨rfl, rfl, rfl⟩
    ((sequencerConsistent_sequencer (by exact hq)).2 ⟨fun hne => absurd rfl hne, hst⟩)

/-- A call the sequencer commands is made in Opening or Closing; Direct mode's words say nothing of the sequencer. -/
theorem opening_or_closing_of_commanded {P Q : Prop}
    (hi : P ∧ s.params.hostMode = .direct ∨
      Q ∧ s.params.hostMode = .sequencer ∧ (s.fsm.mcl = .opening ∨ s.fsm.mcl = .closing))
    (hq : s.params.hostMode = .sequencer) : s.fsm.mcl = .opening ∨ s.fsm.mcl = .closing := by
  rcases hi with ⟨-, hd⟩ | ⟨-, -, hl⟩
  · simp [hq] at hd
  · exact hl

/-- Every change an operation can make keeps the invariants. -/
theorem Effect.keeps_invariants {i : Instr} (e : Effect s i t) (h : Invariants s) : Invariants t := by
  cases e with
  | same => exact h
  | refused => exact h.raiseErr .proto
  | configured p hc => exact h.setPeriod hc p
  | ticked => exact h.countTick
  | servicedA he =>
    obtain ⟨hp, hh⟩ := (evaEnabled_iff s).1 he
    exact h.serviceEvent (ch := .a) hp hh
  | servicedB he =>
    obtain ⟨hp, -, hh⟩ := (evbEnabled_iff s).1 he
    exact h.serviceEvent (ch := .b) hp hh
  | edge l => exact h.samplePin l
  | began _ d angle hi hc hm => exact h.beginMove hc hm (opening_or_closing_of_commanded hi) d angle
  | ended _ hi hm => exact h.endMove hm (opening_or_closing_of_commanded hi)
  | acknowledged hd hm =>
    exact h.of_atRest (h.configured (by simp [hm])) (by simp) (h.quiescent (by simp [hm])) ⟨rfl, rfl, rfl⟩
      (h.sequencer.of_sameSequencer rfl rfl rfl fun _ hne => absurd rfl hne)
  | toOpening hq hc hs =>
    have hm := h.call_idle hq (.inl hs)
    exact h.of_transition hq hc (by simp [hm]) hm (by simp)
  | toHolding hq hc hs hm => exact h.of_transition hq hc (by simp [hm]) rfl (by simp [h.status_on hq, hs])
  | toClosing hq hc hs =>
    have hm := h.call_idle hq (.inr hs)
    exact h.of_transition hq hc (by simp [hm]) hm (by simp [h.status_on hq, hs])
  | toIdle hq hc hs hm => exact h.of_transition hq hc (by simp [hm]) rfl (by simp)
  | reset => exact invariants_powerOn s.params s.pin s.stream

end

/-- Settles O30: taking the word keeps the invariants, and so does every change its operation can make. -/
theorem invariantsKeptByEveryStep : Obligations.InvariantsKeptByEveryStep := by
  intro s t h hstep
  obtain ⟨w, rest, -, hperf⟩ := step_next_cases hstep
  have htaken : Invariants { s with stream := rest } := h.of_unconstrained s.pin s.csr s.err rest
  rcases hperf with ⟨i, -, hexec⟩ | ⟨why, -, rfl⟩
  · exact (exec_next_effect hexec).keeps_invariants htaken
  · exact htaken.raiseErr .ill

/-! ## The registers' bytes hold their fields: each stands at its own bits, from which it is read back (R15, R36) -/

theorem Tie.byte_injective : Function.Injective Tie.byte := by
  refine Function.LeftInverse.injective (g := fun b => ⟨b.getLsbD 0, b.getLsbD 1⟩) fun r => ?_
  rcases r with ⟨_ | _, _ | _⟩ <;> rfl

theorem Tif.byte_injective : Function.Injective Tif.byte := by
  refine Function.LeftInverse.injective (g := fun b => ⟨b.getLsbD 0, b.getLsbD 1⟩) fun r => ?_
  rcases r with ⟨_ | _, _ | _⟩ <;> rfl

theorem Port.byte_injective : Function.Injective Port.byte := by
  refine Function.LeftInverse.injective
    (g := fun b => ⟨b.getLsbD 0, b.getLsbD 1, b.getLsbD 2⟩) fun r => ?_
  rcases r with ⟨_ | _, _ | _, _ | _⟩ <;> rfl

theorem Err.byte_injective : Function.Injective Err.byte := by
  refine Function.LeftInverse.injective
    (g := fun b => ⟨b.getLsbD 0, b.getLsbD 1, b.getLsbD 2⟩) fun r => ?_
  rcases r with ⟨_ | _, _ | _, _ | _⟩ <;> rfl

theorem boolByte_injective : Function.Injective boolByte := by
  refine Function.LeftInverse.injective (g := fun b => b.getLsbD 0) fun r => ?_
  cases r <;> rfl

theorem mapByte_injective : Function.Injective mapByte := by
  intro a b h
  cases a <;> cases b <;> simp_all [mapByte]

theorem pinByte_injective : Function.Injective pinByte := by
  intro a b h
  cases a <;> cases b <;> simp_all [pinByte]

theorem Mcl.code_injective : Function.Injective Mcl.code := by
  intro a b h
  cases a <;> cases b <;> simp_all [Mcl.code]

theorem Mc.code_injective : Function.Injective Mc.code := by
  intro a b h
  cases a <;> cases b <;> simp_all [Mc.code]

theorem bitVec_append_inj {n m : Nat} {a a' : BitVec n} {b b' : BitVec m} (h : a ++ b = a' ++ b') : a = a' ∧ b = b' :=
  ⟨by simpa only [BitVec.extractLsb'_append_eq_left] using congrArg (BitVec.extractLsb' m n) h,
    by simpa only [BitVec.setWidth_append_eq_right] using congrArg (BitVec.setWidth m) h⟩

theorem Fsm.byte_injective : Function.Injective Fsm.byte := by
  rintro ⟨l, c⟩ ⟨l', c'⟩ h
  obtain ⟨hhigh, hl⟩ := bitVec_append_inj h
  obtain ⟨-, hc⟩ := bitVec_append_inj hhigh
  exact congrArg₂ Fsm.mk (Mcl.code_injective hl) (Mc.code_injective hc)

/-- Settles O26: each register's fields are read back from its byte. -/
theorem registersAreTheWholeState : Obligations.RegistersAreTheWholeState := by
  intro s t h hstream hparams
  have htcnt : s.tcnt = t.tcnt := h 0x00#8
  have hocra : s.ocra = t.ocra := h 0x01#8
  have hocrb : s.ocrb = t.ocrb := h 0x02#8
  have htie : s.tie = t.tie := Tie.byte_injective (h 0x03#8)
  have htif : s.tif = t.tif := Tif.byte_injective (h 0x04#8)
  have hstepcnt : s.stepcnt = t.stepcnt := h 0x05#8
  have htarget : s.target = t.target := h 0x06#8
  have hmap : s.map = t.map := mapByte_injective (h 0x07#8)
  have hport : s.port = t.port := Port.byte_injective (h 0x08#8)
  have hpin : s.pin = t.pin := pinByte_injective (h 0x09#8)
  have hcsr : s.csr = t.csr := boolByte_injective (h 0x0A#8)
  have hfsm : s.fsm = t.fsm := Fsm.byte_injective (h 0x0B#8)
  have herr : s.err = t.err := Err.byte_injective (h 0x0C#8)
  have hcfg : s.cfg = t.cfg := boolByte_injective (h 0x0D#8)
  cases s
  cases t
  simp_all

/-! ## Write ownership (R34) -/

/-- The registers that beginning a move leaves alone, whichever way it goes (R91 to R93). -/
theorem beginMove_frame (d : Dir) (angle : Nat) (s : State) :
    let t := beginMove d angle s
    t = { s with tcnt := t.tcnt, tie := t.tie, tif := t.tif, stepcnt := 0#8, target := t.target, map := d,
                 fsm := { s.fsm with mc := t.fsm.mc }, err := t.err } := by
  rcases beginMove_cases d angle s with ⟨-, e⟩ | ⟨-, e⟩ | ⟨-, -, e⟩ <;> simp only [e] <;> rfl

theorem hostMode_direct_of_ne {m : HostMode} (h : m ≠ .sequencer) : m = .direct := by
  cases m with
  | sequencer => exact absurd rfl h
  | direct => rfl

/-- ERR is written by a word that R120's table refuses, by a start, by MCL.STEP and by SYS.RESET. -/
theorem err_writers {i : Instr} {s t : State} (h : exec i s = .next t) (he : t.err ≠ s.err) :
    protoRefused s i ∨ ((∃ d a, i = .mcStart d a) ∨ i = .mclStep) ∨ i = .sysReset := by
  refine or_iff_not_imp_left.2 fun hp => ?_
  cases i with
  | tpgConfig p =>
    have hc : s.cfg = false := Bool.eq_false_of_not_eq_true hp
    obtain rfl : setPeriod p s = t := by simpa [exec_tpgConfig, hc] using h
    exact absurd rfl he
  | mcPoll =>
    obtain ⟨hd, hm⟩ := not_or.1 hp
    obtain rfl : pollMove s = t := by
      simpa [exec_mcPoll, requireMode_self (hostMode_direct_of_ne hd), mcPoll_performed (not_not.1 hm)] using h
    rcases pollMove_cases s with ⟨-, e⟩ | ⟨-, e⟩ <;> simp [e] at he
  | mcAck =>
    obtain ⟨hd, hm⟩ := not_or.1 hp
    obtain rfl : setMc .idle s = t := by
      simpa [exec_mcAck, requireMode_self (hostMode_direct_of_ne hd), mcAck_performed (not_not.1 hm)] using h
    exact absurd rfl he
  | tpgTick =>
    obtain ⟨-, rfl⟩ := exec_tpgTick_next.1 h
    exact absurd rfl he
  | ctdEva =>
    obtain ⟨-, rfl⟩ := exec_ctdEva_next.1 h
    exact absurd rfl he
  | ctdEvb =>
    obtain ⟨-, rfl⟩ := exec_ctdEvb_next.1 h
    exact absurd rfl he
  | csmEdge l =>
    obtain rfl : (if l = s.pin then s else samplePin l s) = t := by simpa [exec_csmEdge] using h
    split at he <;> exact absurd rfl he
  | mcStart d a => exact .inl (.inl ⟨d, a, rfl⟩)
  | mclStep => exact .inl (.inr rfl)
  | sysReset => exact .inr rfl

/-- Settles O31: the registers an update leaves alone, effect by effect; for ERR, `err_writers`. -/
theorem registersWrittenOnlyByTheirOwners : Obligations.RegistersWrittenOnlyByTheirOwners := by
  intro i s t h
  have herr := err_writers h
  cases exec_next_effect h with
  | began _ d angle hi =>
    rw [beginMove_frame]
    rcases hi with ⟨rfl, -⟩ | ⟨rfl, -⟩ <;> simp
  | ended _ hi => rcases hi with ⟨rfl, -⟩ | ⟨rfl, -⟩ <;> simp
  | refused => simpa using herr
  | _ => simp

/-! ## What an operation reads decides which registers it writes and how -/

/-- The updates an operation can answer with. `Effect` says what became of one state; an update, being a function, can
be applied to a second state as well. -/
inductive Write : (State → State) → Prop where
  | keep : Write id
  | refuse : Write (raiseErr .proto)
  | configure (p : Nat) : Write (setPeriod p)
  | count : Write countTick
  | service (ch : Channel) : Write (serviceEvent ch)
  | sample (l : Level) : Write (samplePin l)
  | beginOutOfRange (d : Dir) : Write fun s => setMc .done (raiseErr .range (setTarget 0 (clearSteps (ctdInstall d s))))
  | beginNoSteps (d : Dir) : Write fun s => setMc .done (setTarget 0 (clearSteps (ctdInstall d s)))
  | beginArmed (d : Dir) (n : Nat) :
      Write fun s => setMc .run (tpgIrqEnable (tpgClear (setTarget n (clearSteps (ctdInstall d s)))))
  | finish : Write fun s => setMc .done (tpgIrqDisable s)
  | acknowledge : Write (setMc .idle)
  | toOpening : Write fun s => setStatus true (setMcl .opening s)
  | toHolding : Write fun s => setMcl .holding (setMc .idle s)
  | toClosing : Write (setMcl .closing)
  | toIdle : Write fun s => setStatus false (setMcl .idle (setMc .idle s))
  | reset : Write resetRegisters

/-- The two states agree on all that an operation's choice of update rests on. -/
structure SameReads (s u : State) : Prop where
  tif : u.tif = s.tif
  pin : u.pin = s.pin
  csr : u.csr = s.csr
  fsm : u.fsm = s.fsm
  cfg : u.cfg = s.cfg
  params : u.params = s.params
  hold : hold u = hold s
  reached : s.fsm.mc = .run → targetReached u = targetReached s

/-- In both states the function is one and the same update. -/
def WritesAlike (s u : State) (g : State → State) : Prop := ∃ f, Write f ∧ g s = f s ∧ g u = f u

section
variable {s u : State}

theorem Write.alike {f : State → State} (h : Write f) : WritesAlike s u f := ⟨f, h, rfl, rfl⟩

theorem WritesAlike.congr {f g : State → State} (h : WritesAlike s u f) (hs : g s = f s) (hu : g u = f u) :
    WritesAlike s u g := by
  obtain ⟨w, hw, es, eu⟩ := h
  exact ⟨w, hw, hs.trans es, hu.trans eu⟩

/-- A choice on a condition that comes out the same in both states. -/
theorem WritesAlike.ite {c : State → Bool} {f g : State → State} (hc : c u = c s)
    (hf : c s = true → WritesAlike s u f) (hg : WritesAlike s u g) :
    WritesAlike s u fun x => if c x then f x else g x := by
  cases h : c s with
  | false => exact hg.congr (by simp [h]) (by simp [hc, h])
  | true => exact (hf h).congr (by simp [h]) (by simp [hc, h])

/-- A legality check that comes out the same in both states. -/
theorem WritesAlike.require {c : State → Bool} {g : State → State} (hc : c u = c s)
    (hg : c s = true → WritesAlike s u g) : WritesAlike s u fun x => require (c x) .proto g x :=
  .ite hc hg Write.refuse.alike

theorem SameReads.requireMode_alike (h : SameReads s u) (m : HostMode) {g : State → State} (hg : WritesAlike s u g) :
    WritesAlike s u (requireMode m g) :=
  .require (c := fun x => x.params.hostMode == m) (by simp [h.params]) fun _ => hg

theorem SameReads.beginMove_alike (h : SameReads s u) (d : Dir) (angle : Nat) :
    WritesAlike s u (beginMove d angle) := by
  by_cases hmax : s.params.targetMax < stepsOfAngle s.params.angleArith angle
  · exact (Write.beginOutOfRange d).alike.congr (by simp [beginMove, armMove, hmax])
      (by simp [beginMove, armMove, h.params, hmax])
  by_cases hzero : stepsOfAngle s.params.angleArith angle = 0
  · exact (Write.beginNoSteps d).alike.congr (by simp [beginMove, armMove, hzero])
      (by simp [beginMove, armMove, h.params, hzero])
  · exact (Write.beginArmed d (stepsOfAngle s.params.angleArith angle)).alike.congr
      (by simp [beginMove, armMove, hmax, hzero])
      (by simp [beginMove, armMove, h.params, hmax, hzero])

theorem SameReads.mcStart_alike (h : SameReads s u) (d : Dir) (angle : Nat) : WritesAlike s u (mcStart d angle) :=
  .require (c := fun x => x.cfg && x.fsm.mc == .idle) (by simp [h.cfg, h.fsm]) fun _ => h.beginMove_alike d angle

theorem SameReads.mcPoll_alike (h : SameReads s u) : WritesAlike s u mcPoll := by
  refine .require (c := fun x => x.fsm.mc == .run) (by simp [h.fsm]) fun hm => ?_
  exact .ite (h.reached (by simpa using hm)) (fun _ => Write.finish.alike) Write.keep.alike

theorem SameReads.mcAck_alike (h : SameReads s u) : WritesAlike s u mcAck :=
  .require (c := fun x => x.fsm.mc == .done) (by simp [h.fsm]) fun _ => Write.acknowledge.alike

/-- One arm of a commanded move is the call's own update, or the transition at its return. -/
theorem SameReads.mclMove_alike (h : SameReads s u) (d : Dir) {onReturn : State → State}
    (hw : Write fun x => onReturn (setMc .idle x)) : WritesAlike s u (mclMove d onReturn) := by
  cases hm : s.fsm.mc with
  | idle =>
    exact (h.mcStart_alike d s.params.moveAngle.val).congr (by simp [mclMove, hm])
      (by simp [mclMove, h.fsm, h.params, hm])
  | run => exact h.mcPoll_alike.congr (by simp [mclMove, hm]) (by simp [mclMove, h.fsm, hm])
  | done =>
    exact hw.alike.congr (by simp [mclMove, hm, mcAck_performed])
      (by simp [mclMove, h.fsm, hm, mcAck_performed])

theorem SameReads.mclIdle_alike (h : SameReads s u) : WritesAlike s u mclIdle :=
  .ite h.csr (fun _ => Write.toOpening.alike) Write.keep.alike

theorem SameReads.mclHolding_alike (h : SameReads s u) : WritesAlike s u mclHolding :=
  .ite h.csr (fun _ => Write.keep.alike) Write.toClosing.alike

theorem SameReads.mclOpening_alike (h : SameReads s u) : WritesAlike s u mclOpening :=
  (h.mclMove_alike s.params.openDir .toHolding).congr rfl (by simp [mclOpening, h.params])

theorem SameReads.mclClosing_alike (h : SameReads s u) : WritesAlike s u mclClosing :=
  (h.mclMove_alike s.params.openDir.flip .toIdle).congr rfl (by simp [mclClosing, h.params])

theorem SameReads.mclArm_alike (h : SameReads s u) : WritesAlike s u mclArm := by
  cases hl : s.fsm.mcl with
  | idle => exact h.mclIdle_alike.congr (by simp [mclArm, hl]) (by simp [mclArm, h.fsm, hl])
  | opening => exact h.mclOpening_alike.congr (by simp [mclArm, hl]) (by simp [mclArm, h.fsm, hl])
  | holding => exact h.mclHolding_alike.congr (by simp [mclArm, hl]) (by simp [mclArm, h.fsm, hl])
  | closing => exact h.mclClosing_alike.congr (by simp [mclArm, hl]) (by simp [mclArm, h.fsm, hl])

/-- An operation stops with the same fault in both states or makes the same update of both. -/
inductive SameOutcome (s u : State) (i : Instr) : Prop where
  | fault (f : Fault) (hs : exec i s = .fault f) (hu : exec i u = .fault f)
  | next (f : State → State) (hf : Write f) (hs : exec i s = .next (f s)) (hu : exec i u = .next (f u))

/-- An operation that answers a next state in every state. -/
theorem WritesAlike.sameOutcome {i : Instr} {g : State → State} (h : WritesAlike s u g)
    (hi : ∀ x, exec i x = .next (g x)) : SameOutcome s u i := by
  obtain ⟨f, hf, hs, hu⟩ := h
  exact .next f hf (by rw [hi, hs]) (by rw [hi, hu])

/-- An operation whose enabling condition comes out the same in both states. -/
theorem Write.sameOutcome {i : Instr} {c : State → Bool} {f : State → State} {e : Fault} (hf : Write f)
    (hi : ∀ x, exec i x = if c x then .next (f x) else .fault e) (hc : c u = c s) : SameOutcome s u i := by
  cases h : c s with
  | false => exact .fault e (by simp [hi, h]) (by simp [hi, hc, h])
  | true => exact .next f hf (by simp [hi, h]) (by simp [hi, hc, h])

/-- An operation's outcome is decided by what it reads. -/
theorem SameReads.sameOutcome (h : SameReads s u) (i : Instr) : SameOutcome s u i := by
  cases i with
  | tpgConfig p =>
    exact (WritesAlike.require (c := fun x => !x.cfg) (by simp [h.cfg])
      fun _ => (Write.configure p).alike).sameOutcome fun _ => rfl
  | tpgTick => exact Write.count.sameOutcome (c := tickEnabled) (fun _ => rfl) (by simp [tickEnabled, h.tif])
  | ctdEva =>
    exact (Write.service .a).sameOutcome (c := evaEnabled) (fun _ => rfl) (by simp [evaEnabled, h.tif, h.hold])
  | ctdEvb =>
    exact (Write.service .b).sameOutcome (c := evbEnabled) (fun _ => rfl) (by simp [evbEnabled, h.tif, h.hold])
  | csmEdge l =>
    exact (WritesAlike.ite (c := fun x => l = x.pin) (by simp [h.pin]) (fun _ => Write.keep.alike)
      (Write.sample l).alike).sameOutcome fun x => by simp [exec_csmEdge]
  | mcStart d angle => exact (h.requireMode_alike .direct (h.mcStart_alike d angle)).sameOutcome (exec_mcStart d angle)
  | mcPoll => exact (h.requireMode_alike .direct h.mcPoll_alike).sameOutcome exec_mcPoll
  | mcAck => exact (h.requireMode_alike .direct h.mcAck_alike).sameOutcome exec_mcAck
  | mclStep =>
    exact (h.requireMode_alike .sequencer (.require (c := State.cfg) h.cfg fun _ => h.mclArm_alike)).sameOutcome
      exec_mclStep
  | sysReset => exact Write.reset.alike.sameOutcome exec_sysReset

/-- Where every update leaves the two states related by `R`, so does every operation. -/
theorem SameReads.exec_related (h : SameReads s u) {R : State → State → Prop}
    (hR : ∀ f, Write f → R (f s) (f u)) (i : Instr) :
    (∀ t, exec i s = .next t → ∃ v, exec i u = .next v ∧ R t v) ∧
    (∀ f, exec i s = .fault f → exec i u = .fault f) := by
  cases h.sameOutcome i with
  | fault f hs hu => simp [hs, hu]
  | next f hf hs hu => simpa [hs, hu] using hR f hf

end

/-! ## ERR and TARGET -/

theorem Write.err_unread {f : State → State} (h : Write f) (s : State) (e : Err) :
    ∃ e', f { s with err := e } = { f s with err := e' } := by
  cases h <;> exact ⟨_, rfl⟩

theorem Write.target_unread {f : State → State} (h : Write f) (s : State) (v : Byte) :
    ∃ v', f { s with target := v } = { f s with target := v' } := by
  cases h <;> exact ⟨_, rfl⟩

/-- Settles O39: no condition of an operation reads ERR and no update moves it into another register. -/
theorem noOperationReadsErr : Obligations.NoOperationReadsErr := by
  intro i s e
  have h : SameReads s { s with err := e } := ⟨rfl, rfl, rfl, rfl, rfl, rfl, rfl, fun _ => rfl⟩
  simpa using h.exec_related (R := fun t v => ∃ e', v = { t with err := e' }) (fun f hf => hf.err_unread s e) i

/-- Settles O41: the hold and the poll read TARGET in MC_RUN only. -/
theorem targetUnreadOutsideAMove : Obligations.TargetUnreadOutsideAMove := by
  intro i s v hm
  have h : SameReads s { s with target := v } :=
    ⟨rfl, rfl, rfl, rfl, rfl, rfl, by simp [hold, beq_false_of_ne hm], fun hr => absurd hr hm⟩
  simpa using h.exec_related (R := fun t w => ∃ v', w = { t with target := v' }) (fun f hf => hf.target_unread s v) i

end Sys2Proof.Machine
end

section
/-! PROOFS. Family 20_memory.md: the serialisation of a trace (R40, R41), the schedule and the parameters under every
operation (R39, R6), and the counters a new move starts from (R46). -/

namespace Sys2Proof

/-! ## The serialisation of words (R40, R41) -/

/-- The first byte is the least significant: the word is its four bytes, the last one on top (R40). -/
theorem wordOfBytes_eq_append (b0 b1 b2 b3 : Byte) :
    wordOfBytes b0 b1 b2 b3 = (b3 ++ b2 ++ b1 ++ b0).setWidth 32 := by
  rw [BitVec.setWidth_append_append_append_eq_shiftLeft_setWidth_or]
  rfl

theorem bytesOfWord_wordOfBytes (b0 b1 b2 b3 : Byte) : bytesOfWord (wordOfBytes b0 b1 b2 b3) = [b0, b1, b2, b3] := by
  simp (disch := omega) only [bytesOfWord, wordOfBytes_eq_append, BitVec.extractLsb'_setWidth_of_le,
    BitVec.extractLsb'_append_eq_of_le, BitVec.extractLsb'_append_eq_right, BitVec.extractLsb'_eq_self,
    Nat.reduceSub]

/-- A word's own four bytes, as `bytesOfWord` lists them, spell it. -/
theorem wordOfBytes_extractLsb (w : Word) :
    wordOfBytes (w.extractLsb' 0 8) (w.extractLsb' 8 8) (w.extractLsb' 16 8) (w.extractLsb' 24 8) = w := by
  simp only [wordOfBytes_eq_append, BitVec.extractLsb'_append_extractLsb'_eq_extractLsb']
  exact BitVec.extractLsb'_eq_self

/-- A trace is read back as exactly the words it serialises. -/
theorem wordsOfBytes_eq_some {bytes : List Byte} {ws : List Word} :
    wordsOfBytes bytes = some ws ↔ ws.flatMap bytesOfWord = bytes := by
  constructor
  · intro h
    induction bytes using wordsOfBytes.induct generalizing ws with
    | case1 =>
      obtain rfl : [] = ws := by simpa [wordsOfBytes] using h
      rfl
    | case2 b0 b1 b2 b3 rest ih =>
      obtain ⟨ws', hrest, rfl⟩ : ∃ ws', wordsOfBytes rest = some ws' ∧ wordOfBytes b0 b1 b2 b3 :: ws' = ws := by
        simpa [wordsOfBytes] using h
      simp [bytesOfWord_wordOfBytes, ih hrest]
    | case3 => simp [wordsOfBytes] at h
  · rintro rfl
    induction ws with
    | nil => rfl
    | cons w ws ih => simp [bytesOfWord, wordsOfBytes, wordOfBytes_extractLsb, ih]

/-- Bytes that fill no whole number of words spell none. -/
theorem wordsOfBytes_eq_none : ∀ bytes : List Byte, wordsOfBytes bytes = none ↔ bytes.length % 4 ≠ 0
  | [] | [_] | [_, _] | [_, _, _] => by simp [wordsOfBytes]
  | _ :: _ :: _ :: _ :: rest => by simpa [wordsOfBytes, Nat.add_assoc] using wordsOfBytes_eq_none rest

end Sys2Proof

namespace Sys2Proof.Machine

theorem loadTrace_of_words {bytes : List Byte} {ws : List Word} (h : wordsOfBytes bytes = some ws) (s : State) :
    loadTrace bytes s = .next { s with stream := ws } := by simp [loadTrace, h]

theorem loadTrace_of_malformed {bytes : List Byte} (h : wordsOfBytes bytes = none) (s : State) :
    loadTrace bytes s = .refused .malformedTrace := by simp [loadTrace, h]

/-- Settles O7: bytes are a trace exactly of the words read from them, and only whole words are read. -/
theorem serialisedTraceLoadsItsWords : Obligations.SerialisedTraceLoadsItsWords := by
  refine ⟨by decide, fun ws s => loadTrace_of_words (wordsOfBytes_eq_some.2 rfl) s,
    fun bytes s h => loadTrace_of_malformed ((wordsOfBytes_eq_none bytes).2 h) s, fun bytes s h => ?_⟩
  obtain ⟨ws, hws⟩ := Option.ne_none_iff_exists'.1 fun hn => (wordsOfBytes_eq_none bytes).1 hn h
  exact ⟨ws, wordsOfBytes_eq_some.1 hws, loadTrace_of_words hws s⟩

/-! ## The model's own fields (log entries 1, 2) -/

/-- Settles O33, effect by effect. -/
theorem scheduleAndParametersUntouched : Obligations.ScheduleAndParametersUntouched := by
  intro i s t h
  cases exec_next_effect h with
  | began _ d angle =>
    rw [beginMove_frame]
    exact ⟨rfl, rfl⟩
  | _ => exact ⟨rfl, rfl⟩

/-! ## Entering MC_RUN (R46, R94, R144) -/

section
variable {s t : State}

/-- The only way into MC_RUN is a move begun, by MC.START or by MCL.STEP. -/
theorem Effect.began_of_enters_run {i : Instr} (e : Effect s i t) (hs : s.fsm.mc ≠ .run) (ht : t.fsm.mc = .run) :
    ∃ d angle, t = beginMove d angle s := by
  cases e with
  | began _ d angle => exact ⟨d, angle, rfl⟩
  | _ => simp [hs] at ht

/-- A beginning that leaves the move running armed it, with a target within range. -/
theorem beginMove_run {d : Dir} {angle : Nat} (hr : (beginMove d angle s).fsm.mc = .run) :
    ∃ n, 1 ≤ n ∧ n ≤ s.params.targetMax ∧
      beginMove d angle s = setMc .run (tpgIrqEnable (tpgClear (setTarget n (clearSteps (ctdInstall d s))))) := by
  rcases beginMove_cases d angle s with ⟨-, e⟩ | ⟨-, e⟩ | ⟨h1, h2, e⟩
  · simp [e] at hr
  · simp [e] at hr
  · exact ⟨_, h1, h2, e⟩

end

/-- Settles O45: what enters MC_RUN has armed a move. -/
theorem newMoveStartsFromClearedCounters : Obligations.NewMoveStartsFromClearedCounters := by
  intro i s t h hs ht
  obtain ⟨d, angle, rfl⟩ := (exec_next_effect h).began_of_enters_run hs ht
  obtain ⟨n, h1, hmax, e⟩ := beginMove_run ht
  have htarget : (beginMove d angle s).target.toNat = n := by
    rw [e]
    exact setTarget_toNat (s := clearSteps (ctdInstall d s)) (hmax.trans (Nat.sub_le _ _))
  refine ⟨⟨ht, ?_⟩, ?_, htarget ▸ h1, ?_⟩
  · simp [e]
  · simp [e]
  · rw [htarget, e]
    exact hmax

end Sys2Proof.Machine
end

section
/-! PROOFS. Family 30_encoding.md: the fields of a word and the match/mask tests (R50 to R54), decoding and encoding,
illegal words (R55), and the assembler's example lines (R58). -/

namespace Sys2Proof

/-! ## A word is its four fields (R50) -/

theorem word_eq_iff_fields {w v : Word} :
    w = v ↔ opcodeField w = opcodeField v ∧ w.extractLsb' 17 7 = v.extractLsb' 17 7 ∧ bitField w = bitField v ∧
      angleField w = angleField v := by
  constructor
  · rintro rfl
    exact ⟨rfl, rfl, rfl, rfl⟩
  · rintro ⟨hop, hrsv, hbit, hang⟩
    have split (x : Word) : x = opcodeField x ++ x.extractLsb' 17 7 ++ bitField x ++ angleField x := by
      simp only [opcodeField, bitField, angleField, BitVec.extractLsb'_append_extractLsb'_eq_extractLsb']
      exact BitVec.extractLsb'_eq_self.symm
    rw [split w, split v, hop, hrsv, hbit, hang]

/-- A word spells an operation exactly when its fields are the operation's (R51). -/
theorem encode_eq_iff {i : Instr} {w : Word} :
    encode i = w ↔ opcodeField w = opcodeOf i ∧ w.extractLsb' 17 7 = 0#7 ∧ bitField w = bitOperand i ∧
      angleField w = immOperand i := by
  obtain ⟨hop, hrsv, hbit, himm⟩ := Laws.EncodeFields.of_packWord i
  rw [eq_comm, word_eq_iff_fields, hop, hrsv, hbit, himm]

/-- R54's test, field by field. -/
theorem and_eq_iff_fields {w m v : Word} :
    w &&& m = v ↔ opcodeField w &&& opcodeField m = opcodeField v ∧
      w.extractLsb' 17 7 &&& m.extractLsb' 17 7 = v.extractLsb' 17 7 ∧
      bitField w &&& bitField m = bitField v ∧ angleField w &&& angleField m = angleField v := by
  simp only [word_eq_iff_fields (v := v), opcodeField, bitField, angleField, BitVec.extractLsb'_and]

/-! ## The operands of the fields (R52) -/

theorem eq_levelOfBit_iff {l : Level} {b : BitVec 1} : l = levelOfBit b ↔ b = bitOfLevel l := by
  cases l <;> revert b <;> decide

theorem eq_dirOfBit_iff {d : Dir} {b : BitVec 1} : d = dirOfBit b ↔ b = bitOfDir d := by
  cases d <;> revert b <;> decide

theorem eq_toNat_iff {n k : Nat} {x : BitVec n} : k = x.toNat ↔ k < 2 ^ n ∧ x = BitVec.ofNat n k := by
  constructor
  · rintro rfl
    exact ⟨x.isLt, by simp⟩
  · rintro ⟨h, rfl⟩
    exact (Nat.mod_eq_of_lt h).symm

theorem append_inj_iff {n m : Nat} {a a' : BitVec n} {b b' : BitVec m} : a ++ b = a' ++ b' ↔ a = a' ∧ b = b' :=
  ⟨Machine.bitVec_append_inj, by rintro ⟨rfl, rfl⟩; rfl⟩

/-- The low half of a word of format P holds the period alone. -/
theorem angleField_eq_period_iff {w : Word} {b : Byte} : angleField w = b.setWidth 16 ↔
    angleField w &&& 0xFF00#16 = 0#16 ∧ periodField w = b := by
  have hsplit : angleField w = w.extractLsb' 8 8 ++ periodField w := by
    simp only [angleField, periodField, BitVec.extractLsb'_append_extractLsb'_eq_extractLsb']
  have hb : b.setWidth 16 = 0#8 ++ b := BitVec.setWidth_eq_append (by omega)
  have hmask : 0xFF00#16 = BitVec.allOnes 8 ++ 0#8 := rfl
  have hzero : 0#16 = 0#8 ++ 0#8 := rfl
  rw [hsplit, hb, hmask, hzero, BitVec.and_append, BitVec.and_allOnes, BitVec.and_zero, append_inj_iff,
    append_inj_iff]
  simp only [and_true]

/-! ## The tests of the opcode map's rows (R53) -/

/-- In format N every bit is fixed. -/
theorem matches_formatN_iff {w v : Word} : w &&& 0xFFFFFFFF#32 = v ↔ w = v := by
  rw [show 0xFFFFFFFF#32 = BitVec.allOnes 32 from rfl, BitVec.and_allOnes]

theorem matches_tpgConfig_iff {w : Word} : w &&& 0xFFFFFF00#32 = 0x10000000#32 ↔
    opcodeField w = 0x10#8 ∧ w.extractLsb' 17 7 = 0#7 ∧ bitField w = 0#1 ∧ angleField w &&& 0xFF00#16 = 0#16 := by
  rw [and_eq_iff_fields]
  change opcodeField w &&& .allOnes 8 = 0x10#8 ∧ w.extractLsb' 17 7 &&& .allOnes 7 = 0#7 ∧
    bitField w &&& .allOnes 1 = 0#1 ∧ angleField w &&& 0xFF00#16 = 0#16 ↔ _
  simp only [BitVec.and_allOnes]

theorem matches_csmEdge_iff {w : Word} : w &&& 0xFFFEFFFF#32 = 0x30000000#32 ↔
    opcodeField w = 0x30#8 ∧ w.extractLsb' 17 7 = 0#7 ∧ angleField w = 0#16 := by
  rw [and_eq_iff_fields]
  change opcodeField w &&& .allOnes 8 = 0x30#8 ∧ w.extractLsb' 17 7 &&& .allOnes 7 = 0#7 ∧
    bitField w &&& 0#1 = 0#1 ∧ angleField w &&& .allOnes 16 = 0#16 ↔ _
  simp only [BitVec.and_allOnes, BitVec.and_zero, true_and]

theorem matches_mcStart_iff {w : Word} : w &&& 0xFFFE0000#32 = 0x40000000#32 ↔
    opcodeField w = 0x40#8 ∧ w.extractLsb' 17 7 = 0#7 := by
  rw [and_eq_iff_fields]
  change opcodeField w &&& .allOnes 8 = 0x40#8 ∧ w.extractLsb' 17 7 &&& .allOnes 7 = 0#7 ∧
    bitField w &&& 0#1 = 0#1 ∧ angleField w &&& 0#16 = 0#16 ↔ _
  simp only [BitVec.and_allOnes, BitVec.and_zero, and_true]

/-! ## Decoding (R54) -/

/-- A row's test holds of words of its opcode only. -/
theorem opcodeField_of_row {r : OpcodeRow} (hr : r ∈ opcodeTable) {w : Word} (h : w &&& r.mask = r.pattern) :
    opcodeField w = r.opcode := by
  obtain ⟨hmask, hop⟩ := List.forall_iff_forall_mem.1 opcodeTable_opcode_of_mask r hr
  have hm : opcodeField r.mask = BitVec.allOnes 8 :=
    (BitVec.and_allOnes.symm.trans (and_eq_iff_fields.1 hmask).1 :)
  have htest := (and_eq_iff_fields.1 h).1
  rwa [hm, BitVec.and_allOnes, hop] at htest

/-- "No word satisfies two rows" (R53): the opcode tells the row. -/
theorem row_eq_of_opcode {r r' : OpcodeRow} (hr : r ∈ opcodeTable) (hr' : r' ∈ opcodeTable)
    (h : r.opcode = r'.opcode) : r = r' :=
  List.inj_on_of_nodup_map (List.pairwise_map.2 opcodeTable_pairwise_opcode) hr hr' h

/-- R54 finds the row of a word's opcode. -/
theorem find_row_eq_some_iff {w : Word} {r : OpcodeRow} :
    opcodeTable.find? (fun r => r.opcode == opcodeField w) = some r ↔
      r ∈ opcodeTable ∧ r.opcode = opcodeField w := by
  constructor
  · intro h
    exact ⟨List.mem_of_find?_eq_some h, eq_of_beq (List.find?_some h :)⟩
  · rintro ⟨hr, hop⟩
    have hfound : (opcodeTable.find? fun r => r.opcode == opcodeField w).isSome = true :=
      List.find?_isSome.2 ⟨r, hr, beq_iff_eq.2 hop⟩
    obtain ⟨r', hr'⟩ := Option.isSome_iff_exists.1 hfound
    have hop' : r'.opcode = opcodeField w := eq_of_beq (List.find?_some hr' :)
    rw [hr', row_eq_of_opcode (List.mem_of_find?_eq_some hr') hr (hop'.trans hop.symm)]

theorem decode_eq_ok_iff_row {w : Word} {i : Instr} :
    decode w = .ok i ↔ ∃ r ∈ opcodeTable, w &&& r.mask = r.pattern ∧ i = r.operands w := by
  unfold decode
  constructor
  · intro h
    split at h
    next => exact nomatch h
    next r hr =>
      split at h
      next hm =>
        refine ⟨r, (find_row_eq_some_iff.1 hr).1, hm, ?_⟩
        simpa using h.symm
      next => exact nomatch h
  · rintro ⟨r, hr, hm, rfl⟩
    have hf := find_row_eq_some_iff.2 ⟨hr, (opcodeField_of_row hr hm).symm⟩
    simp only [hf, if_pos hm]

/-- A word that meets no row's test is rejected. -/
theorem decode_eq_reject_of_no_row {w : Word} (h : ∀ r ∈ opcodeTable, w &&& r.mask ≠ r.pattern) :
    ∃ why, decode w = .reject why := by
  cases hd : decode w with
  | reject why => exact ⟨why, rfl⟩
  | ok i =>
    obtain ⟨r, hr, hm, -⟩ := decode_eq_ok_iff_row.1 hd
    exact absurd hm (h r hr)

/-- The test and the operands of each operation's row, as `opcodeTable` has them (R53, R54). -/
def SpelledBy (w : Word) : Instr → Prop
  | .tpgConfig p => w &&& 0xFFFFFF00#32 = 0x10000000#32 ∧ p = (periodField w).toNat
  | .tpgTick => w &&& 0xFFFFFFFF#32 = 0x11000000#32
  | .ctdEva => w &&& 0xFFFFFFFF#32 = 0x20000000#32
  | .ctdEvb => w &&& 0xFFFFFFFF#32 = 0x21000000#32
  | .csmEdge l => w &&& 0xFFFEFFFF#32 = 0x30000000#32 ∧ l = levelOfBit (bitField w)
  | .mcStart d a => w &&& 0xFFFE0000#32 = 0x40000000#32 ∧ d = dirOfBit (bitField w) ∧ a = (angleField w).toNat
  | .mcPoll => w &&& 0xFFFFFFFF#32 = 0x41000000#32
  | .mcAck => w &&& 0xFFFFFFFF#32 = 0x42000000#32
  | .mclStep => w &&& 0xFFFFFFFF#32 = 0x50000000#32
  | .sysReset => w &&& 0xFFFFFFFF#32 = 0xF0000000#32

theorem decode_eq_ok_iff_spelledBy {w : Word} {i : Instr} : decode w = .ok i ↔ SpelledBy w i := by
  rw [decode_eq_ok_iff_row]
  cases i <;> simp [opcodeTable, SpelledBy]

/-- A row's test and operands pin every field of the word: it is the operation's own, with its operands in range. -/
theorem spelledBy_iff {w : Word} {i : Instr} : SpelledBy w i ↔ i.wellFormed = true ∧ encode i = w := by
  cases i with
  | tpgConfig p =>
    rw [SpelledBy, matches_tpgConfig_iff, encode_eq_iff]
    simp only [Instr.wellFormed, opcodeOf, bitOperand, immOperand, angleField_eq_period_iff, eq_toNat_iff,
      Nat.reducePow, decide_eq_true_eq]
    tauto
  | csmEdge l =>
    rw [SpelledBy, matches_csmEdge_iff, encode_eq_iff]
    simp only [Instr.wellFormed, opcodeOf, bitOperand, immOperand, eq_levelOfBit_iff]
    tauto
  | mcStart d a =>
    rw [SpelledBy, matches_mcStart_iff, encode_eq_iff]
    simp only [Instr.wellFormed, opcodeOf, bitOperand, immOperand, eq_dirOfBit_iff, eq_toNat_iff,
      Nat.reducePow, decide_eq_true_eq]
    tauto
  | tpgTick | ctdEva | ctdEvb | mcPoll | mcAck | mclStep | sysReset =>
    rw [SpelledBy, matches_formatN_iff, eq_comm]
    exact (and_iff_right rfl).symm

/-- A word decodes to exactly the well-formed operation whose word it is. -/
theorem decode_eq_ok_iff {w : Word} {i : Instr} : decode w = .ok i ↔ i.wellFormed = true ∧ encode i = w :=
  decode_eq_ok_iff_spelledBy.trans spelledBy_iff

/-! ## The operands as numbers (R50, R52) -/

theorem periodField_toNat (w : Word) : (periodField w).toNat = w.toNat % 256 := by
  simp [periodField]

theorem angleField_toNat (w : Word) : (angleField w).toNat = w.toNat % 65536 := by
  simp [angleField]

theorem bitField_eq_zero_iff (w : Word) : bitField w = 0#1 ↔ w.toNat / 65536 % 2 = 0 := by
  simp [bitField, ← BitVec.toNat_inj, Nat.shiftRight_eq_div_pow]

/-! ## The obligations -/

/-- Settles O2: the word of an operation passes the test of the operation's row, with its operands in the fields. -/
theorem decodeOfEncodeIsTheInstruction : Obligations.DecodeOfEncodeIsTheInstruction :=
  fun _ h => decode_eq_ok_iff.2 ⟨h, rfl⟩

/-- Settles O3: a test and its row's operands leave no bit of the word free. -/
theorem decodedWordIsItsEncoding : Obligations.DecodedWordIsItsEncoding :=
  fun _ _ => decode_eq_ok_iff.1

/-- Settles O4, row by row. -/
theorem wordSpellsOperationByMatchAndMask : Obligations.WordSpellsOperationByMatchAndMask := by
  intro w
  simp only [decode_eq_ok_iff_spelledBy, SpelledBy, periodField_toNat, angleField_toNat, levelOfBit, dirOfBit,
    bitField_eq_zero_iff, implies_true, and_true]

end Sys2Proof

namespace Sys2Proof.Machine

/-- A head word that spells no operation is taken from the stream and raises ERR.ILL (R55). -/
theorem step_of_decode_reject {s : State} {w : Word} {rest : List Word} {why : DecodeReject}
    (hs : s.stream = w :: rest) (hd : decode w = .reject why) :
    step s = .next (illegalWord { s with stream := rest }) := by
  have ht : takeWord s = some (w, { s with stream := rest }) := takeWord_eq_some.2 ⟨rest, hs, rfl⟩
  simp only [step, ht, hd]

/-- Settles O5: a word that meets no row's test is rejected. -/
theorem illegalWordSetsOnlyErrIll : Obligations.IllegalWordSetsOnlyErrIll := by
  intro s w rest hs h
  obtain ⟨why, hd⟩ := decode_eq_reject_of_no_row fun r hr =>
    h (r.mask, r.pattern) (List.mem_map_of_mem (f := fun r : OpcodeRow => (r.mask, r.pattern)) hr)
  exact step_of_decode_reject hs hd

/-- Settles O1, word by word. -/
theorem specWordsDecode : Obligations.SpecWordsDecode := by
  unfold Obligations.SpecWordsDecode
  decide

/-- Settles O8, line by line. -/
theorem specLinesAssemble : Obligations.SpecLinesAssemble := by
  unfold Obligations.SpecLinesAssemble
  decide

end Sys2Proof.Machine
end

section
/-! PROOFS. Family 30_encoding.md, the pseudo-operations of R59: what each performs, and the eager `move` (R68, R102). -/

namespace Sys2Proof.Machine

/-! ## Expansions as executions -/

section
variable {s t : State} {i : Instr}

@[simp] theorem andThen_ops (e : Expansion) (more : State → Expansion) :
    (e.andThen more).ops = e.ops ++ (more e.final).ops := rfl

@[simp] theorem andThen_final (e : Expansion) (more : State → Expansion) :
    (e.andThen more).final = (more e.final).final := rfl

theorem attempt_of_next (h : exec i s = .next t) : attempt i s = ⟨[i], t⟩ := by simp [attempt, h]

theorem attempt_of_no_next (h : ∀ t, exec i s ≠ .next t) : attempt i s = ⟨[], s⟩ := by
  rcases exec_next_or_notEnabled i s with ⟨t, ht⟩ | ⟨f, -, hf⟩
  · exact absurd ht (h t)
  · simp [attempt, hf, Expansion.empty]

/-- An attempt performs the operation "if enabled", and nothing otherwise. -/
theorem tried_attempt (i : Instr) (s : State) : Tried i s (attempt i s).ops (attempt i s).final := by
  by_cases h : ∃ t, exec i s = .next t
  · obtain ⟨t, ht⟩ := h
    rw [attempt_of_next ht]
    exact .inl ⟨ht, rfl⟩
  · have hn := not_exists.1 h
    rw [attempt_of_no_next hn]
    exact .inr ⟨hn, rfl, rfl⟩

theorem perform_append {a : List Instr} (h : perform a s = .next t) (b : List Instr) :
    perform (a ++ b) s = perform b t := by
  induction a generalizing s with
  | nil =>
    obtain rfl : s = t := by simpa [perform] using h
    rfl
  | cons i rest ih =>
    simp only [List.cons_append, perform] at h ⊢
    cases hi : exec i s with
    | next u =>
      simp only [hi] at h ⊢
      exact ih h
    | fault f => simp [hi] at h
    | refused r => simp [hi] at h

/-- Performing in turn what an expansion of s lists is an execution that ends where the expansion does. -/
def IsExpansionOf (s : State) (e : Expansion) : Prop := perform e.ops s = .next e.final

theorem IsExpansionOf.empty (s : State) : IsExpansionOf s (.empty s) := rfl

theorem IsExpansionOf.attempt (i : Instr) (s : State) : IsExpansionOf s (attempt i s) := by
  rcases tried_attempt i s with ⟨h, hops⟩ | ⟨-, hops, hfinal⟩
  · simp [IsExpansionOf, hops, perform, h]
  · simp [IsExpansionOf, hops, perform, hfinal]

theorem IsExpansionOf.andThen {e : Expansion} {more : State → Expansion} (h : IsExpansionOf s e)
    (hmore : ∀ t, IsExpansionOf t (more t)) : IsExpansionOf s (e.andThen more) :=
  (perform_append h _).trans (hmore e.final)

theorem isExpansionOf_service (s : State) : IsExpansionOf s (service s) :=
  (IsExpansionOf.attempt ..).andThen (.attempt _)

theorem isExpansionOf_tick (n : Nat) (s : State) : IsExpansionOf s (tick n s) := by
  induction n generalizing s with
  | zero => exact .empty s
  | succ n ih =>
    unfold tick
    split
    · exact ((IsExpansionOf.attempt ..).andThen isExpansionOf_service).andThen ih
    · exact .empty s

theorem isExpansionOf_run (n : Nat) (s : State) : IsExpansionOf s (run n s) := by
  induction n generalizing s with
  | zero => exact .empty s
  | succ n ih => exact ((IsExpansionOf.attempt ..).andThen (isExpansionOf_tick 1)).andThen ih

theorem isExpansionOf_moveLoop (fuel : Nat) (s : State) : IsExpansionOf s (moveLoop fuel s) := by
  induction fuel generalizing s with
  | zero => exact .empty s
  | succ fuel ih =>
    refine (IsExpansionOf.attempt ..).andThen fun t => ?_
    cases t.fsm.mc with
    | run => exact (isExpansionOf_tick 1 t).andThen ih
    | idle => exact ih t
    | done => exact .empty t

theorem isExpansionOf_move (fuel : Nat) (d : Dir) (angle : Nat) (s : State) :
    IsExpansionOf s (move fuel d angle s) := by
  refine ((IsExpansionOf.attempt ..).andThen (isExpansionOf_moveLoop fuel)).andThen fun t => ?_
  split
  · exact .attempt .mcAck t
  · exact .empty t

/-! ## What each performs -/

theorem tick_succ_of_next (n : Nat) (h : exec .tpgTick s = .next t) :
    tick (n + 1) s = ⟨.tpgTick :: (service t).ops ++ (tick n (service t).final).ops,
      (tick n (service t).final).final⟩ := by
  obtain ⟨he, -⟩ := exec_tpgTick_next.1 h
  rw [tick, if_pos he, tickOnce, attempt_of_next h]
  rfl

theorem tick_of_no_next (n : Nat) (h : ∀ t, exec .tpgTick s ≠ .next t) : tick n s = ⟨[], s⟩ := by
  cases n with
  | zero => rfl
  | succ n => exact if_neg fun he => h _ (exec_tpgTick_next.2 ⟨he, rfl⟩)

theorem run_succ_of_next (n : Nat) (h : exec .mclStep s = .next t) :
    run (n + 1) s = ⟨.mclStep :: (tick 1 t).ops ++ (run n (tick 1 t).final).ops,
      (run n (tick 1 t).final).final⟩ := by
  rw [run, attempt_of_next h]
  rfl

theorem count_attempt_of_ne {j : Instr} (h : i ≠ j) (s : State) : (attempt i s).ops.count j = 0 := by
  rcases tried_attempt i s with ⟨-, hops⟩ | ⟨-, hops, -⟩ <;> simp [hops, h]

theorem count_service {j : Instr} (ha : .ctdEva ≠ j) (hb : .ctdEvb ≠ j) (s : State) : (service s).ops.count j = 0 := by
  simp [service, count_attempt_of_ne ha, count_attempt_of_ne hb]

/-- `tick` performs no foreground operation. -/
theorem count_tick_of_fg {j : Instr} (h : j.agent = .fg) (n : Nat) (s : State) : (tick n s).ops.count j = 0 := by
  have hne {i : Instr} (hi : i.agent ≠ .fg) : i ≠ j := fun e => hi (e ▸ h)
  induction n generalizing s with
  | zero => rfl
  | succ n ih =>
    unfold tick
    split
    · simp [tickOnce, ih, count_attempt_of_ne (hne (i := .tpgTick) (by decide)),
        count_service (hne (i := .ctdEva) (by decide)) (hne (i := .ctdEvb) (by decide))]
    · rfl

/-- `tick n` performs n ticks, or stops where the next has no step. -/
theorem count_tick (n : Nat) (s : State) : (tick n s).ops.count .tpgTick = n ∨
    (tick n s).ops.count .tpgTick < n ∧ ∀ t, exec .tpgTick (tick n s).final ≠ .next t := by
  induction n generalizing s with
  | zero => exact .inl rfl
  | succ n ih =>
    by_cases h : ∃ t, exec .tpgTick s = .next t
    · obtain ⟨t, ht⟩ := h
      have hc : (tick (n + 1) s).ops.count .tpgTick = (tick n (service t).final).ops.count .tpgTick + 1 := by
        simp [tick_succ_of_next n ht, count_service (j := .tpgTick) (by decide) (by decide)]
      rw [hc, show (tick (n + 1) s).final = (tick n (service t).final).final by rw [tick_succ_of_next n ht]]
      exact (ih (service t).final).imp (congrArg (· + 1)) (And.imp_left Nat.succ_lt_succ)
    · have hn := not_exists.1 h
      rw [tick_of_no_next _ hn]
      exact .inr ⟨Nat.succ_pos n, hn⟩

theorem count_run (n : Nat) (s : State) : (run n s).ops.count .mclStep = n := by
  induction n generalizing s with
  | zero => rfl
  | succ n ih => simp [run_succ_of_next n (exec_mclStep s), count_tick_of_fg (j := .mclStep) rfl, ih]

/-! ## The loop of `move` -/

theorem PolledToDone.done {ops : List Instr} (h : PolledToDone s ops t) : t.fsm.mc = .done := by
  induction h with
  | last _ hd => exact hd
  | running _ _ _ ih => exact ih
  | notRunning _ _ _ ih => exact ih

/-- With the polls it needs, `moveLoop` is R59's loop. -/
theorem PolledToDone.moveLoop_eq {ops : List Instr} (h : PolledToDone s ops t) {fuel : Nat}
    (hf : ops.count .mcPoll ≤ fuel) : moveLoop fuel s = ⟨ops, t⟩ := by
  induction h generalizing fuel with
  | last hp hd =>
    obtain ⟨n, rfl⟩ : ∃ n, fuel = n + 1 := ⟨fuel - 1, by simp at hf; omega⟩
    simp [moveLoop, attempt_of_next hp, hd, Expansion.andThen, Expansion.empty]
  | @running s t u ops hp hr _ ih =>
    have hc := count_tick_of_fg (j := .mcPoll) rfl 1 t
    simp only [List.cons_append, List.count_cons_self, List.count_append, hc] at hf
    obtain ⟨n, rfl⟩ : ∃ n, fuel = n + 1 := ⟨fuel - 1, by omega⟩
    simp [moveLoop, attempt_of_next hp, hr, Expansion.andThen, ih (fuel := n) (by omega)]
  | notRunning hp hi _ ih =>
    simp only [List.count_cons_self] at hf
    obtain ⟨n, rfl⟩ : ∃ n, fuel = n + 1 := ⟨fuel - 1, by omega⟩
    simp [moveLoop, attempt_of_next hp, hi, Expansion.andThen, ih (fuel := n) (by omega)]

theorem move_of_polledToDone {d : Dir} {angle fuel : Nat} {u v : State} {ops : List Instr}
    (hstart : exec (.mcStart d angle) s = .next t) (hloop : PolledToDone t ops u) (hack : exec .mcAck u = .next v)
    (hf : ops.count .mcPoll ≤ fuel) : move fuel d angle s = ⟨.mcStart d angle :: ops ++ [.mcAck], v⟩ := by
  simp [move, attempt_of_next hstart, Expansion.andThen, hloop.moveLoop_eq hf, hloop.done, attempt_of_next hack]

end

/-- Settles O58: the expansions' equations, and that each is made of attempts performed in turn. -/
theorem pseudoOperationsAddNoBehaviour : Obligations.PseudoOperationsAddNoBehaviour :=
  ⟨isExpansionOf_service, isExpansionOf_tick, isExpansionOf_run,
    fun s => ⟨IsExpansionOf.attempt _ s, IsExpansionOf.attempt _ s⟩, isExpansionOf_move,
    fun s => ⟨congrArg Expansion.ops (attempt_of_next (exec_csmEdge _ s)),
      congrArg Expansion.ops (attempt_of_next (exec_csmEdge _ s))⟩,
    fun s => ⟨_, _, _, tried_attempt .ctdEva s, tried_attempt .ctdEvb _, rfl⟩, fun _ => ⟨rfl, rfl⟩,
    fun n _ _ => tick_succ_of_next n, fun n _ => tick_of_no_next n, count_tick, count_run,
    fun n _ _ => run_succ_of_next n, fun _ _ _ _ _ _ _ _ => move_of_polledToDone⟩

end Sys2Proof.Machine
end

section
/-! PROOFS. Family 30_encoding.md, R59's eager `move`: the law of R68 in numbers, what the handlers of one tick do to it
(41 R77 to R80), and the move's ticks and polls (R92, R93, R102, R154). -/

namespace Sys2Proof.Machine

/-! ## E and T of R68 -/

/-- In q whole periods and r ticks more, E counts two events a period and B's of the last once it is past. -/
theorem eventCount_of_period {P r : Nat} (hr : r ≤ P) (q : Nat) :
    eventCount P (r + q * (P + 1)) = 2 * q + if P / 2 + 1 ≤ r then 1 else 0 := by
  have hpos : 0 < P + 1 := P.succ_pos
  have ha : (r + q * (P + 1)) / (P + 1) = q := by
    rw [Nat.add_mul_div_right _ _ hpos, Nat.div_eq_of_lt (by omega), Nat.zero_add]
  have hb : (r + q * (P + 1) + P - P / 2) / (P + 1) = (r + P - P / 2) / (P + 1) + q := by
    rw [← Nat.add_mul_div_right _ _ hpos]
    congr 1
    omega
  rw [eventCount, ha, hb]
  split
  next h => rw [Nat.div_eq_of_lt_le (k := 1) (by omega) (by omega)]; omega
  next h => rw [Nat.div_eq_of_lt (by omega)]; omega

theorem exists_period (P n : Nat) : ∃ r q, r ≤ P ∧ n = r + q * (P + 1) :=
  ⟨n % (P + 1), n / (P + 1), Nat.le_of_lt_succ (Nat.mod_lt _ P.succ_pos), (Nat.mod_add_div' _ _).symm⟩

theorem mod_of_period {P r : Nat} (hr : r ≤ P) (q : Nat) : (r + q * (P + 1)) % (P + 1) = r := by
  rw [Nat.add_mul_mod_self_right, Nat.mod_eq_of_lt (Nat.lt_succ_of_le hr)]

/-- A tick on the count P is an event of A, one on P div 2 an event of B. -/
theorem eventCount_succ (P n : Nat) : eventCount P (n + 1) =
    eventCount P n + ((if n % (P + 1) = P then 1 else 0) + (if n % (P + 1) = P / 2 then 1 else 0)) := by
  obtain ⟨r, q, hr, rfl⟩ := exists_period P n
  rw [mod_of_period hr, eventCount_of_period hr]
  by_cases hlast : r = P
  · have hnext : r + q * (P + 1) + 1 = 0 + (q + 1) * (P + 1) := by rw [hlast, Nat.succ_mul]; omega
    rw [hnext, eventCount_of_period P.zero_le]
    split_ifs <;> omega
  · rw [Nat.add_right_comm, eventCount_of_period (show r + 1 ≤ P by omega)]
    split_ifs <;> omega

theorem eventTick_even (P k : Nat) : eventTick P (2 * k) = 0 + k * (P + 1) := by simp [eventTick]

theorem eventTick_odd (P k : Nat) : eventTick P (2 * k + 1) = (P / 2 + 1) + k * (P + 1) := by
  simp [eventTick, Nat.add_comm, Nat.add_left_comm]

theorem mul_add_le_of_lt {k q : Nat} (h : k < q) (m : Nat) : k * m + m ≤ q * m :=
  (Nat.succ_mul k m).ge.trans (Nat.mul_le_mul_right m h)

/-- The j-th event falls on tick T(j): E reaches j there. -/
theorem le_eventCount_iff {P j n : Nat} (hj : 1 ≤ j) : j ≤ eventCount P n ↔ eventTick P j ≤ n := by
  obtain ⟨r, q, hr, rfl⟩ := exists_period P n
  rw [eventCount_of_period hr]
  obtain ⟨k, rfl | rfl⟩ := Nat.even_or_odd' j
  · rw [eventTick_even]
    rcases Nat.lt_trichotomy k q with h | rfl | h
    · have := mul_add_le_of_lt h (P + 1)
      omega
    · omega
    · have := mul_add_le_of_lt h (P + 1)
      split_ifs <;> omega
  · rw [eventTick_odd]
    rcases Nat.lt_trichotomy k q with h | rfl | h
    · have := mul_add_le_of_lt h (P + 1)
      omega
    · split_ifs <;> omega
    · have := mul_add_le_of_lt h (P + 1)
      split_ifs <;> omega

/-- With P ≥ 1 no two events fall on one tick. -/
theorem eventCount_eventTick {P : Nat} (hP : 1 ≤ P) (j : Nat) : eventCount P (eventTick P j) = j := by
  obtain ⟨k, rfl | rfl⟩ := Nat.even_or_odd' j
  · rw [eventTick_even, eventCount_of_period P.zero_le, if_neg (by omega), Nat.add_zero]
  · rw [eventTick_odd, eventCount_of_period (by omega), if_pos le_rfl]

/-! ## The handlers of one tick (R77, R78, R80) -/

section
variable {s t u : State}

/-- The events pending. -/
def Tif.count (f : Tif) : Nat := f.pa.toNat + f.pb.toNat

/-- What servicing events leaves of a state: the registers that a handler does not write, and the sum of the steps
counted and the events pending. -/
structure Serviced (s u : State) : Prop where
  frame : u = { s with port := u.port, stepcnt := u.stepcnt, tif := u.tif }
  events : u.stepcnt.toNat + u.tif.count = s.stepcnt.toNat + s.tif.count

theorem Serviced.refl (s : State) : Serviced s s := ⟨rfl, rfl⟩

theorem Serviced.trans (h : Serviced s t) (h' : Serviced t u) : Serviced s u where
  frame := by
    obtain ⟨hf, -⟩ := h
    obtain ⟨hf', -⟩ := h'
    rw [hf', hf]
  events := h'.events.trans h.events

theorem Serviced.running (h : Serviced s t) (hm : s.fsm.mc = .run) : t.fsm.mc = .run := by
  rw [h.frame]
  exact hm

/-- Outside the hold there is room for one more step, so a handler moves its event from TIF to STEPCNT. -/
theorem serviced_serviceEvent (hinv : Invariants s) (hm : s.fsm.mc = .run) {ch : Channel}
    (hp : s.tif.pending ch = true) (hh : ¬ hold s = true) : Serviced s (serviceEvent ch s) where
  frame := rfl
  events := by
    obtain ⟨-, -, -, hmax⟩ := hinv.bounded hm
    have hlt : s.stepcnt.toNat < s.target.toNat + s.params.overshootMax :=
      not_le.1 fun hle => hh ((hold_iff s).2 ⟨hm, hle⟩)
    have hstep : (s.stepcnt + 1#8).toNat = s.stepcnt.toNat + 1 := by bv_omega
    have htif : (s.tif.clear ch).count + 1 = s.tif.count := by
      cases ch with
      | a => simp [Tif.clear, Tif.count, show s.tif.pa = true from hp, Nat.add_comm]
      | b => simp [Tif.clear, Tif.count, show s.tif.pb = true from hp]
    simp only [serviceEvent_stepcnt, serviceEvent_tif, hstep]
    omega

theorem Invariants.attempt (h : Invariants s) (i : Instr) : Invariants (attempt i s).final := by
  rcases tried_attempt i s with ⟨hx, -⟩ | ⟨-, -, hx⟩
  · exact (exec_next_effect hx).keeps_invariants h
  · rwa [hx]

/-- CTD.EVA if enabled: A's event is serviced, or stays pending in the hold. -/
theorem serviced_attempt_ctdEva (hinv : Invariants s) (hm : s.fsm.mc = .run) :
    Serviced s (attempt .ctdEva s).final ∧
      ((attempt .ctdEva s).final.tif.pa = true → hold (attempt .ctdEva s).final = true) := by
  rcases tried_attempt .ctdEva s with ⟨hx, -⟩ | ⟨hn, -, hx⟩
  · obtain ⟨he, e⟩ := exec_ctdEva_next.1 hx
    obtain ⟨hp, hh⟩ := (evaEnabled_iff s).1 he
    rw [e]
    exact ⟨serviced_serviceEvent hinv hm hp hh, nofun⟩
  · rw [hx]
    refine ⟨.refl s, fun hp => ?_⟩
    by_contra hh
    exact hn _ (exec_ctdEva_next.2 ⟨(evaEnabled_iff s).2 ⟨hp, hh⟩, rfl⟩)

/-- CTD.EVB if enabled, where A's event is serviced or in the hold: so is B's afterwards. -/
theorem serviced_attempt_ctdEvb (hinv : Invariants s) (hm : s.fsm.mc = .run) (hA : s.tif.pa = true → hold s = true) :
    Serviced s (attempt .ctdEvb s).final ∧
      ((attempt .ctdEvb s).final.tif ≠ ⟨false, false⟩ → hold (attempt .ctdEvb s).final = true) := by
  rcases tried_attempt .ctdEvb s with ⟨hx, -⟩ | ⟨hn, -, hx⟩
  · obtain ⟨he, e⟩ := exec_ctdEvb_next.1 hx
    obtain ⟨hb, ha, hh⟩ := (evbEnabled_iff s).1 he
    rw [e]
    refine ⟨serviced_serviceEvent (ch := .b) hinv hm hb hh, fun hne => absurd ?_ hne⟩
    rw [serviceEvent_tif, Tif.clear, ha]
  · rw [hx]
    refine ⟨.refl s, fun hne => ?_⟩
    by_contra hh
    have ha : s.tif.pa = false := Bool.eq_false_of_not_eq_true fun ha => hh (hA ha)
    have hb : s.tif.pb = true := Bool.eq_true_of_not_eq_false fun hb => hne (congrArg₂ Tif.mk ha hb)
    exact hn _ (exec_ctdEvb_next.2 ⟨(evbEnabled_iff s).2 ⟨hb, ha, hh⟩, rfl⟩)

/-- Servicing in a move: nothing stays pending outside the hold. -/
theorem serviced_service (hinv : Invariants s) (hm : s.fsm.mc = .run) :
    Serviced s (service s).final ∧
      ((service s).final.tif ≠ ⟨false, false⟩ → hold (service s).final = true) := by
  obtain ⟨hserv, hA⟩ := serviced_attempt_ctdEva hinv hm
  obtain ⟨hserv', hheld⟩ := serviced_attempt_ctdEvb (hinv.attempt .ctdEva) (hserv.running hm) hA
  exact ⟨hserv.trans hserv', hheld⟩

/-! ## The ticks of a move (R68) -/

/-- The state after n ticks of the eager schedule in the move that began in `a`: the count is n modulo P + 1, E(n) events
have come, and those not serviced are in the hold. -/
structure AfterTicks (a : State) (n : Nat) (t : State) : Prop where
  frame : t = { a with tcnt := t.tcnt, port := t.port, stepcnt := t.stepcnt, tif := t.tif }
  count : t.tcnt.toNat = n % (a.ocra.toNat + 1)
  events : t.stepcnt.toNat + t.tif.count = eventCount a.ocra.toNat n
  held : t.tif ≠ ⟨false, false⟩ → hold t = true
  invariants : Invariants t

variable {a : State} {n : Nat}

theorem AfterTicks.zero (hinv : Invariants a) (h : JustArmed a) : AfterTicks a 0 a := by
  obtain ⟨-, htcnt, hstep, htif⟩ := h
  have hE := eventCount_of_period (Nat.zero_le a.ocra.toNat) 0
  exact ⟨rfl, by simp [htcnt], by simpa [hstep, htif, Tif.count, eq_comm] using hE, fun hne => absurd htif hne, hinv⟩

theorem AfterTicks.running (h : AfterTicks a n t) (hm : a.fsm.mc = .run) : t.fsm.mc = .run := by
  rw [h.frame]
  exact hm

theorem AfterTicks.ocra (h : AfterTicks a n t) : t.ocra = a.ocra := by rw [h.frame]

theorem AfterTicks.target (h : AfterTicks a n t) : t.target = a.target := by rw [h.frame]

/-- The matches of the next tick are the events of R68. -/
theorem AfterTicks.count_matchPending (h : AfterTicks a n t) (hm : a.fsm.mc = .run) :
    (matchPending t).count = (if n % (a.ocra.toNat + 1) = a.ocra.toNat then 1 else 0) +
      (if n % (a.ocra.toNat + 1) = a.ocra.toNat / 2 then 1 else 0) := by
  have htie : t.tie = ⟨true, true⟩ := h.invariants.enables.trans (if_pos (h.running hm))
  have hA : matchA t = decide (n % (a.ocra.toNat + 1) = a.ocra.toNat) := by
    rw [← h.count, ← h.ocra, matchA, Bool.beq_eq_decide_eq]
    simp only [BitVec.toNat_inj]
  have hB : matchB t = decide (n % (a.ocra.toNat + 1) = a.ocra.toNat / 2) := by
    have hhalf : t.ocrb.toNat = t.ocra.toNat / 2 := h.invariants.halfPeriod
    rw [← h.count, ← h.ocra, ← hhalf, matchB, Bool.beq_eq_decide_eq]
    simp only [BitVec.toNat_inj]
  simp [Tif.count, matchPending, htie, hA, hB, Bool.toNat, Bool.cond_decide]

theorem AfterTicks.nextCount_toNat (h : AfterTicks a n t) :
    (nextCount t).toNat = (n + 1) % (a.ocra.toNat + 1) := by
  have hcount := h.count
  have hP : a.ocra.toNat ≤ 255 := Nat.le_of_lt_succ a.ocra.isLt
  obtain ⟨r, q, hr, rfl⟩ := exists_period a.ocra.toNat n
  rw [mod_of_period hr] at hcount
  unfold nextCount
  split
  next hA =>
    have hlast : r = a.ocra.toNat := by rw [← hcount, (matchA_iff t).1 hA, h.ocra]
    have hnext : r + q * (a.ocra.toNat + 1) + 1 = 0 + (q + 1) * (a.ocra.toNat + 1) := by rw [Nat.succ_mul]; omega
    rw [hnext, mod_of_period (Nat.zero_le _)]
    rfl
  next hA =>
    have hlast : r ≠ a.ocra.toNat := fun e =>
      hA ((matchA_iff t).2 (BitVec.eq_of_toNat_eq (by rw [hcount, e, h.ocra])))
    rw [Nat.add_right_comm, mod_of_period (by omega)]
    bv_omega

/-- One more tick of the eager schedule, where no event is in the hold. -/
theorem AfterTicks.tick_one (h : AfterTicks a n t) (hm : a.fsm.mc = .run) (hf : t.tif = ⟨false, false⟩) :
    AfterTicks a (n + 1) (tick 1 t).final ∧ (tick 1 t).ops.count .tpgTick = 1 := by
  have htick : exec .tpgTick t = .next (countTick t) := exec_tpgTick_next.2 ⟨(tickEnabled_iff t).2 hf, rfl⟩
  have hinv : Invariants (countTick t) := h.invariants.countTick
  obtain ⟨hserv, hheld⟩ := serviced_service hinv (h.running hm)
  have hev := h.events
  rw [hf] at hev
  rw [tick_succ_of_next 0 htick]
  refine ⟨?_, by simp [tick, Expansion.empty, count_service (j := .tpgTick) (by decide) (by decide)]⟩
  exact
  { frame := by
      change (service (countTick t)).final = _
      rw [hserv.frame, h.frame]
      rfl
    count := by
      change (service (countTick t)).final.tcnt.toNat = _
      rw [hserv.frame]
      exact h.nextCount_toNat
    events := by
      refine hserv.events.trans ?_
      rw [countTick_stepcnt, countTick_tif, h.count_matchPending hm, eventCount_succ, ← hev]
      rfl
    held := hheld
    invariants := (hinv.attempt .ctdEva).attempt .ctdEvb }

theorem AfterTicks.target_pos (h : AfterTicks a n t) (hm : a.fsm.mc = .run) : 1 ≤ a.target.toNat := by
  rw [← h.target]
  exact (h.invariants.bounded (h.running hm)).1

/-- Short of the target there is no hold, so every event is serviced. -/
theorem AfterTicks.tif_of_not_reached (h : AfterTicks a n t) (hr : targetReached t = false) :
    t.tif = ⟨false, false⟩ := by
  by_contra hne
  have hle : t.target.toNat ≤ t.stepcnt.toNat := (Nat.le_add_right _ _).trans ((hold_iff t).1 (h.held hne)).2
  simp [(targetReached_iff t).2 hle] at hr

/-- The target is reached with the tick T(target), not before (R68, R102). -/
theorem AfterTicks.targetReached_iff (h : AfterTicks a n t) (hm : a.fsm.mc = .run) :
    targetReached t = true ↔ eventTick a.ocra.toNat a.target.toNat ≤ n := by
  have hev := h.events
  rw [← le_eventCount_iff (h.target_pos hm), ← h.target]
  constructor
  · intro hr
    have := (Machine.targetReached_iff t).1 hr
    omega
  · intro hE
    by_contra hr
    rw [h.tif_of_not_reached (Bool.eq_false_of_not_eq_true hr)] at hev
    exact hr ((Machine.targetReached_iff t).2 (hE.trans hev.ge))

/-- With P ≥ 1 the tick that reaches the target does not pass it (R154). -/
theorem AfterTicks.stepcnt_eq_target (h : AfterTicks a (eventTick a.ocra.toNat a.target.toNat) t)
    (hm : a.fsm.mc = .run) (hP : 1 ≤ a.ocra.toNat) : t.stepcnt = t.target := by
  have hle := (Machine.targetReached_iff t).1 ((h.targetReached_iff hm).2 le_rfl)
  have hev := h.events
  rw [eventCount_eventTick hP, ← h.target] at hev
  exact BitVec.eq_of_toNat_eq (by omega)

/-! ## The loop of polls and ticks -/

theorem exec_mcPoll_running (hd : s.params.hostMode = .direct) (hm : s.fsm.mc = .run) :
    exec .mcPoll s = .next (if targetReached s then setMc .done (tpgIrqDisable s) else s) := by
  rw [exec_mcPoll, requireMode_self hd, mcPoll_performed hm, pollMove]

/-- m ticks before the target, the loop performs m ticks and m + 1 polls. -/
theorem AfterTicks.polledToDone (hd : a.params.hostMode = .direct) (hm : a.fsm.mc = .run) (m : Nat)
    (h : AfterTicks a n t) (hT : eventTick a.ocra.toNat a.target.toNat = n + m) :
    ∃ ops u, PolledToDone t ops (setMc .done (tpgIrqDisable u)) ∧
      AfterTicks a (eventTick a.ocra.toNat a.target.toNat) u ∧
      ops.count .tpgTick = m ∧ ops.count .mcPoll = m + 1 := by
  induction m generalizing n t with
  | zero =>
    have hpoll := exec_mcPoll_running (s := t) (by rw [h.frame]; exact hd) (h.running hm)
    rw [if_pos ((h.targetReached_iff hm).2 hT.le)] at hpoll
    exact ⟨_, t, .last hpoll rfl, hT ▸ h, rfl, rfl⟩
  | succ m ih =>
    have hr : targetReached t = false :=
      Bool.eq_false_of_not_eq_true fun hr => by have := (h.targetReached_iff hm).1 hr; omega
    have hpoll := exec_mcPoll_running (s := t) (by rw [h.frame]; exact hd) (h.running hm)
    rw [if_neg (by simp [hr])] at hpoll
    obtain ⟨hnext, hone⟩ := h.tick_one hm (h.tif_of_not_reached hr)
    obtain ⟨ops, u, hloop, hu, hticks, hpolls⟩ := ih hnext (by omega)
    refine ⟨_, u, .running hpoll (h.running hm) hloop, hu, ?_, ?_⟩
    · simp [hone, hticks, Nat.add_comm]
    · simp [count_tick_of_fg (j := .mcPoll) rfl, hpolls]

end

/-! ## The whole of `move` -/

section
variable {s : State}

theorem exec_mcStart_performed (hd : s.params.hostMode = .direct) (hc : s.cfg = true) (hm : s.fsm.mc = .idle) (d : Dir)
    (angle : Nat) : exec (.mcStart d angle) s = .next (beginMove d angle s) := by
  rw [exec_mcStart, requireMode_self hd, mcStart_performed hc hm]

theorem exec_mcPoll_refused (hm : s.fsm.mc ≠ .run) : exec .mcPoll s = .next (raiseErr .proto s) := by
  by_cases hd : s.params.hostMode = .direct
  · rw [exec_mcPoll, requireMode_self hd, mcPoll_refused hm]
  · rw [exec_mcPoll, requireMode_other hd]

theorem exec_mcAck_performed (hd : s.params.hostMode = .direct) (hm : s.fsm.mc = .done) :
    exec .mcAck s = .next (setMc .idle s) := by
  rw [exec_mcAck, requireMode_self hd, mcAck_performed hm]

/-- A move that returned at once: its only poll is refused (R92, R93, R95; log entry 13). -/
theorem move_of_returned_at_once {t : State} {d : Dir} {angle fuel : Nat} (hf : 1 ≤ fuel)
    (hstart : exec (.mcStart d angle) s = .next t) (hd : t.params.hostMode = .direct) (hm : t.fsm.mc = .done) :
    move fuel d angle s = ⟨[.mcStart d angle, .mcPoll, .mcAck], setMc .idle (raiseErr .proto t)⟩ :=
  move_of_polledToDone hstart (.last (exec_mcPoll_refused (by simp [hm])) hm) (exec_mcAck_performed hd hm) hf

/-- A beginning without a step, or out of range, returns at once. -/
theorem beginMove_returned {angle : Nat} (h : stepsOfAngle s.params.angleArith angle = 0 ∨
    s.params.targetMax < stepsOfAngle s.params.angleArith angle) (d : Dir) :
    (beginMove d angle s).fsm.mc = .done := by
  rcases beginMove_cases d angle s with ⟨-, e⟩ | ⟨-, e⟩ | ⟨h1, hmax, -⟩
  · rw [e]; rfl
  · rw [e]; rfl
  · omega

/-- A beginning in range arms the move of that many steps and raises no error. -/
theorem beginMove_armed {angle : Nat} (h1 : 1 ≤ stepsOfAngle s.params.angleArith angle)
    (hmax : stepsOfAngle s.params.angleArith angle ≤ s.params.targetMax) (d : Dir) :
    JustArmed (beginMove d angle s) ∧
      (beginMove d angle s).target.toNat = stepsOfAngle s.params.angleArith angle ∧
      (beginMove d angle s).err = s.err := by
  rcases beginMove_cases d angle s with ⟨hout, -⟩ | ⟨hzero, -⟩ | ⟨-, -, e⟩
  · omega
  · omega
  · rw [e]
    exact ⟨⟨rfl, rfl, rfl, rfl⟩,
      setTarget_toNat (s := clearSteps (ctdInstall d s)) (hmax.trans (Nat.sub_le _ _)), rfl⟩

/-- An armed move: T(target) ticks with a poll before, between and after them, then MC.ACK. -/
theorem move_of_armed {a : State} {d : Dir} {angle fuel : Nat} (hstart : exec (.mcStart d angle) s = .next a)
    (hinv : Invariants a) (harmed : JustArmed a) (hd : a.params.hostMode = .direct)
    (hfuel : eventTick a.ocra.toNat a.target.toNat < fuel) :
    ∃ ops u, move fuel d angle s =
        ⟨.mcStart d angle :: ops ++ [.mcAck], setMc .idle (setMc .done (tpgIrqDisable u))⟩ ∧
      AfterTicks a (eventTick a.ocra.toNat a.target.toNat) u ∧
      ops.count .tpgTick = eventTick a.ocra.toNat a.target.toNat ∧
      ops.count .mcPoll = eventTick a.ocra.toNat a.target.toNat + 1 := by
  obtain ⟨ops, u, hloop, hu, hticks, hpolls⟩ :=
    (AfterTicks.zero hinv harmed).polledToDone hd harmed.1 _ (Nat.zero_add _).symm
  have hack := exec_mcAck_performed (s := setMc .done (tpgIrqDisable u)) (by rw [hu.frame]; exact hd) rfl
  exact ⟨ops, u, move_of_polledToDone hstart hloop hack (by omega), hu, hticks, hpolls⟩

end

/-- Settles O59: an armed move runs through its loop by the law of R68; one without a step, or out of range, returns at
once. -/
theorem eagerMoveRunsToItsTarget : Obligations.EagerMoveRunsToItsTarget := by
  intro fuel d angle s hinv hd hc hm
  have hstart := exec_mcStart_performed hd hc hm d angle
  have hframe := beginMove_frame d angle s
  have hdirect : (beginMove d angle s).params.hostMode = .direct := by rw [hframe]; exact hd
  constructor
  · intro h1 hmax hfuel
    obtain ⟨harmed, htarget, herr⟩ := beginMove_armed h1 hmax d
    have hocra : (beginMove d angle s).ocra = s.ocra := by rw [hframe]
    have hmap : (beginMove d angle s).map = d := by rw [hframe]
    obtain ⟨ops, u, hmove, hu, hticks, hpolls⟩ :=
      move_of_armed hstart ((exec_next_effect hstart).keeps_invariants hinv) harmed hdirect
        (by rw [hocra, htarget]; exact hfuel)
    have hreached := (targetReached_iff u).1 ((hu.targetReached_iff harmed.1).2 le_rfl)
    have hexact := hu.stepcnt_eq_target harmed.1
    have huerr : u.err = s.err := by rw [hu.frame]; exact herr
    have humap : u.map = d := by rw [hu.frame]; exact hmap
    rw [hu.target, htarget] at hreached
    rw [hocra, htarget] at hticks hpolls
    rw [hocra] at hexact
    simpa [hmove, hticks, hpolls, hu.target, htarget, huerr, humap, hreached, Quiescent] using hexact
  · intro hnone hfuel
    rw [move_of_returned_at_once hfuel hstart hdirect (beginMove_returned hnone d)]
    refine ⟨rfl, rfl, rfl, ?_, ?_⟩
    · change (beginMove d angle s).stepcnt = _
      rw [hframe]
    · change (beginMove d angle s).port = _
      rw [hframe]

end Sys2Proof.Machine
end

section
/-! PROOFS. Family 40_timer_pulse_generator.md: TPG.CONFIG and TPG.TICK (R64 to R67), the period of a timer with nothing
enabled (R69), and the ticks on which a move's events fall (R68). -/

namespace Sys2Proof.Machine

section
variable {s t : State}

/-! ## One tick -/

theorem exec_tpgTick_enabled (h : s.tif = ⟨false, false⟩) : exec .tpgTick s = .next (countTick s) :=
  exec_tpgTick_next.2 ⟨(tickEnabled_iff s).2 h, rfl⟩

theorem tick_succ_final (h : s.tif = ⟨false, false⟩) (n : Nat) :
    (tick (n + 1) s).final = (tick n (service (countTick s)).final).final := by
  rw [tick_succ_of_next n (exec_tpgTick_enabled h)]

theorem matchPending_pa_iff (s : State) : (matchPending s).pa = true ↔ s.tcnt = s.ocra ∧ s.tie.iea = true := by
  simp [matchPending, matchA_iff]

theorem matchPending_pb_iff (s : State) : (matchPending s).pb = true ↔ s.tcnt = s.ocrb ∧ s.tie.ieb = true := by
  simp [matchPending, matchB_iff]

theorem matchPending_of_disabled (h : s.tie = ⟨false, false⟩) : matchPending s = ⟨false, false⟩ := by
  simp [matchPending, h]

theorem nextCount_eq (s : State) :
    nextCount s = if s.tcnt = s.ocra then 0#8 else BitVec.ofNat 8 ((s.tcnt.toNat + 1) % 256) := by
  simp only [nextCount, matchA_iff]
  split
  next => rfl
  next => bv_omega

/-- Within its period the count counts modulo P + 1. -/
theorem nextCount_toNat_of_countInPeriod (h : CountInPeriod s) :
    (nextCount s).toNat = (s.tcnt.toNat + 1) % (s.ocra.toNat + 1) := by
  rw [nextCount_eq]
  split
  next hA => simp [hA]
  next hA =>
    have hlt : s.tcnt.toNat < s.ocra.toNat := Nat.lt_of_le_of_ne h fun e => hA (BitVec.eq_of_toNat_eq e)
    have hbyte := s.ocra.isLt
    rw [Nat.mod_eq_of_lt (Nat.succ_lt_succ hlt), Nat.mod_eq_of_lt (by omega), BitVec.toNat_ofNat,
      Nat.mod_eq_of_lt (by omega)]

/-! ## The timer with nothing enabled (R69) -/

theorem service_of_nothing_pending (h : s.tif = ⟨false, false⟩) : service s = ⟨[], s⟩ := by
  have hA : attempt .ctdEva s = ⟨[], s⟩ := attempt_of_no_next fun t ht => by
    obtain ⟨he, -⟩ := exec_ctdEva_next.1 ht
    simp [evaEnabled, h] at he
  have hB : attempt .ctdEvb s = ⟨[], s⟩ := attempt_of_no_next fun t ht => by
    obtain ⟨he, -⟩ := exec_ctdEvb_next.1 ht
    simp [evbEnabled, h] at he
  rw [service, hA, Expansion.andThen, hB]
  rfl

theorem tick_succ_final_of_quiescent (h : Quiescent s) (n : Nat) :
    (tick (n + 1) s).final = (tick n { s with tcnt := nextCount s }).final := by
  obtain ⟨htie, htif⟩ := h
  have hsame : countTick s = { s with tcnt := nextCount s } := by
    rw [countTick, matchPending_of_disabled htie, ← htif]
  rw [tick_succ_final htif, service_of_nothing_pending (matchPending_of_disabled htie), hsame]

theorem tick_final_of_quiescent (hcount : CountInPeriod s) (hq : Quiescent s) (n : Nat) :
    (tick n s).final = { s with tcnt := (tick n s).final.tcnt } ∧
      (tick n s).final.tcnt.toNat = (s.tcnt.toNat + n) % (s.ocra.toNat + 1) := by
  induction n generalizing s with
  | zero => exact ⟨rfl, (Nat.mod_eq_of_lt (Nat.lt_succ_of_le hcount)).symm⟩
  | succ n ih =>
    obtain ⟨hframe, htcnt⟩ := ih (s := { s with tcnt := nextCount s }) (nextCount_le hcount) hq
    rw [tick_succ_final_of_quiescent hq]
    refine ⟨hframe, htcnt.trans ?_⟩
    rw [nextCount_toNat_of_countInPeriod hcount, Nat.mod_add_mod, Nat.add_assoc, Nat.add_comm 1 n]

/-! ## The ticks of a move within the hold's bound (R68) -/

theorem eventCount_mono (P : Nat) : Monotone (eventCount P) :=
  monotone_nat_of_le_succ fun n => (eventCount_succ P n).symm ▸ Nat.le_add_right _ _

theorem succ_mod_eq_iff {P k : Nat} (hk : k ≤ P) (n : Nat) :
    (n + 1) % (P + 1) = (k + 1) % (P + 1) ↔ n % (P + 1) = k := by
  rw [← Nat.ModEq, Nat.ModEq.add_iff_right rfl, Nat.ModEq, Nat.mod_eq_of_lt (Nat.lt_succ_of_le hk)]

theorem Tif.count_pos_iff (f : Tif) : 1 ≤ f.count ↔ f ≠ ⟨false, false⟩ := by
  obtain ⟨pa, pb⟩ := f
  cases pa <;> cases pb <;> decide

variable {a : State} {n : Nat}

/-- An event still pending is in the hold, which STEPCNT reaches only with more events than the bound lets pass. -/
theorem AfterTicks.tif_of_within_bound (h : AfterTicks a n t)
    (hE : eventCount a.ocra.toNat n ≤ a.target.toNat + a.params.overshootMax) : t.tif = ⟨false, false⟩ := by
  by_contra hne
  obtain ⟨-, hheld⟩ := (hold_iff t).1 (h.held hne)
  have hpending := (Tif.count_pos_iff t.tif).2 hne
  have hev := h.events
  have hparams : t.params = a.params := by rw [h.frame]
  rw [h.target, hparams] at hheld
  omega

/-- As long as the events keep within the hold's bound, every tick is taken and its events serviced. -/
theorem AfterTicks.tick_final (hm : a.fsm.mc = .run) (m : Nat) (h : AfterTicks a n t)
    (hE : eventCount a.ocra.toNat (n + m) ≤ a.target.toNat + a.params.overshootMax) :
    AfterTicks a (n + m) (tick m t).final := by
  induction m generalizing n t with
  | zero => exact h
  | succ m ih =>
    have hf := h.tif_of_within_bound ((eventCount_mono _ (Nat.le_add_right ..)).trans hE)
    obtain ⟨hnext, -⟩ := h.tick_one hm hf
    rw [← Nat.add_assoc, Nat.add_right_comm] at hE ⊢
    rw [tick_succ_final hf] at hnext ⊢
    exact ih hnext hE

theorem AfterTicks.tie (h : AfterTicks a n t) (hm : a.fsm.mc = .run) : t.tie = ⟨true, true⟩ :=
  h.invariants.enables.trans (if_pos (h.running hm))

/-- The next tick is an event of A on the multiples of P + 1. -/
theorem AfterTicks.matchPending_pa (h : AfterTicks a n t) (hm : a.fsm.mc = .run) :
    (matchPending t).pa = true ↔ (n + 1) % (a.ocra.toNat + 1) = 0 := by
  rw [matchPending_pa_iff, h.tie hm, and_iff_left rfl, ← BitVec.toNat_inj, h.count, h.ocra,
    ← succ_mod_eq_iff le_rfl, Nat.mod_self]

/-- The next tick is an event of B on P div 2 + 1 modulo P + 1. -/
theorem AfterTicks.matchPending_pb (h : AfterTicks a n t) (hm : a.fsm.mc = .run) :
    (matchPending t).pb = true ↔ (n + 1) % (a.ocra.toNat + 1) = (a.ocra.toNat / 2 + 1) % (a.ocra.toNat + 1) := by
  have hhalf : t.ocrb.toNat = t.ocra.toNat / 2 := h.invariants.halfPeriod
  rw [matchPending_pb_iff, h.tie hm, and_iff_left rfl, ← BitVec.toNat_inj, h.count, hhalf, h.ocra,
    succ_mod_eq_iff (Nat.div_le_self ..)]

end

/-- Settles O52: within the bound nothing stays pending, so the ticks run on, by induction on their number. -/
theorem eventsFallOnTheTicksOfTheLaw : Obligations.EventsFallOnTheTicksOfTheLaw := by
  intro s n hinv harmed P t hE
  have hm : s.fsm.mc = .run := harmed.1
  have h : AfterTicks s n t := by
    have := (AfterTicks.zero hinv harmed).tick_final hm n (by rwa [Nat.zero_add])
    rwa [Nat.zero_add] at this
  have htif : t.tif = ⟨false, false⟩ := h.tif_of_within_bound hE
  obtain ⟨-, -, -, hs⟩ := harmed
  refine ⟨?_, h.count, ?_, countTick t, exec_tpgTick_enabled htif, h.matchPending_pa hm, h.matchPending_pb hm⟩
  · have hframe := h.frame
    rwa [htif, ← hs] at hframe
  · simpa [htif, Tif.count] using h.events

/-- Settles O56, by induction on the number of ticks. -/
theorem disabledTimerCyclesThroughThePeriod : Obligations.DisabledTimerCyclesThroughThePeriod :=
  fun _ n hcount hq => tick_final_of_quiescent hcount hq n

/-- Settles O9: OCRB is the half of OCRA, which holds every p below 256. -/
theorem tpgConfigSetsPeriodOnce : Obligations.TpgConfigSetsPeriodOnce := by
  intro p s hp
  have hA : (compareA p).toNat = p := (BitVec.toNat_ofNat p 8).trans (Nat.mod_eq_of_lt hp)
  rw [exec_tpgConfig]
  constructor
  · intro hc
    refine ⟨setPeriod p s, by simp [hc], hA, ?_, rfl⟩
    rw [setPeriod_ocrb, compareB_toNat, hA]
  · intro hc
    simp [hc, raiseErr, Err.set]

/-- Settles O10: the tick's enabling condition, then its count and its two pending bits. -/
theorem tpgTickCountsAndRecordsMatches : Obligations.TpgTickCountsAndRecordsMatches := by
  intro s
  constructor
  · simp [exec_tpgTick_next, tickEnabled_iff]
  · intro h
    have hA : (matchPending s).pa = decide (s.tcnt = s.ocra ∧ s.tie.iea = true) :=
      Bool.eq_iff_iff.2 ((matchPending_pa_iff s).trans decide_eq_true_iff.symm)
    have hB : (matchPending s).pb = decide (s.tcnt = s.ocrb ∧ s.tie.ieb = true) :=
      Bool.eq_iff_iff.2 ((matchPending_pb_iff s).trans decide_eq_true_iff.symm)
    rw [exec_tpgTick_enabled h, countTick, nextCount_eq, ← hA, ← hB]

end Sys2Proof.Machine
end

section
/-! PROOFS. Family 41_coil_toggle_driver.md: the two handlers (R77, R78), the overshoot hold (R80), and the count and
the channels of a move under every schedule (R81, R99). -/

namespace Sys2Proof.Machine

section
variable {s t : State}

/-! ## The handlers (R77, R78) -/

/-- The operation that services a channel's event. -/
def handler : Channel → Instr
  | .a => .ctdEva
  | .b => .ctdEvb

theorem stepcnt_succ_eq (s : State) : s.stepcnt + 1#8 = BitVec.ofNat 8 ((s.stepcnt.toNat + 1) % 256) := by bv_omega

/-- Short of the hold STEPCNT is below a bound of at most 255, so one more step does not wrap. -/
theorem serviceEvent_stepcnt_toNat (h : Invariants s) (hm : s.fsm.mc = .run) (hh : ¬ hold s = true) (ch : Channel) :
    (serviceEvent ch s).stepcnt.toNat = s.stepcnt.toNat + 1 := by
  obtain ⟨-, -, -, hmax⟩ := h.bounded hm
  have hlt : s.stepcnt.toNat < s.target.toNat + s.params.overshootMax :=
    not_le.1 fun hle => hh ((hold_iff s).2 ⟨hm, hle⟩)
  rw [serviceEvent_stepcnt]
  bv_omega

/-! ## The poll of a running move, in either HOST_MODE (R95, R104) -/

theorem exec_mclStep_running (hq : s.params.hostMode = .sequencer) (hc : s.cfg = true)
    (hl : s.fsm.mcl = .opening ∨ s.fsm.mcl = .closing) (hm : s.fsm.mc = .run) :
    exec .mclStep s = .next (pollMove s) := by
  rw [exec_mclStep, requireMode_self hq, require_true hc]
  rcases hl with hl | hl <;> simp [mclArm, hl, mclOpening, mclClosing, mclMove, hm, mcPoll_performed hm]

theorem exec_pollingOperation_running (h : Invariants s) (hm : s.fsm.mc = .run) :
    exec (pollingOperation s.params.hostMode) s = .next (pollMove s) := by
  cases hd : s.params.hostMode with
  | direct => exact exec_mcPoll_running hd hm
  | sequencer =>
    have hne : s.fsm.mc ≠ .idle := by simp [hm]
    exact exec_mclStep_running hd (h.configured hne) (((sequencerConsistent_sequencer hd).1 h.sequencer).1 hne) hm

theorem pollMove_of_reached (hr : targetReached s = true) : pollMove s = setMc .done (tpgIrqDisable s) := by
  simp [pollMove, hr]

theorem exec_mcPoll_reached (hd : s.params.hostMode = .direct) (hm : s.fsm.mc = .run)
    (hr : s.target.toNat ≤ s.stepcnt.toNat) : exec .mcPoll s = .next (setMc .done (tpgIrqDisable s)) := by
  rw [exec_mcPoll_running hd hm, if_pos ((targetReached_iff s).2 hr)]

/-! ## What can happen to a running move -/

/-- The changes of a running move, each with the operation performed, if it was one (an illegal word is none). -/
inductive MoveEffect (s : State) : Option Instr → State → Prop where
  /-- no register of the move changes -/
  | apart {o : Option Instr} (ho : ∀ ch, o ≠ some (handler ch)) (pin : Level) (csr : Bool) (err : Err) :
      MoveEffect s o { s with pin := pin, csr := csr, err := err }
  | ticked (h : s.tif = ⟨false, false⟩) : MoveEffect s (some .tpgTick) (countTick s)
  /-- an event serviced: A's, or B's where A's does not come first -/
  | serviced (ch : Channel) (hp : s.tif.pending ch = true) (hfirst : ch = .b → s.tif.pa = false)
      (hh : ¬ hold s = true) : MoveEffect s (some (handler ch)) (serviceEvent ch s)
  | ended {o : Option Instr} (ho : ∀ ch, o ≠ some (handler ch)) (hr : targetReached s = true) :
      MoveEffect s o (setMc .done (tpgIrqDisable s))

theorem some_ne_handler {i : Instr} (h : i.agent ≠ .irq) (ch : Channel) : some i ≠ some (handler ch) := by
  rintro ⟨⟩
  cases ch <;> exact h rfl

/-- Every change but a reset. A running move excludes the others: the machine is configured, the call has not returned, and
the sequencer, where it commands the move, is in Opening or Closing. -/
theorem Effect.moveEffect {i : Instr} (e : Effect s i t) (h : Invariants s) (hm : s.fsm.mc = .run)
    (hi : i ≠ .sysReset) : MoveEffect s (some i) t := by
  have hidle (hq : s.params.hostMode = .sequencer) (hl : s.fsm.mcl = .idle ∨ s.fsm.mcl = .holding) : False := by
    simpa [hm] using h.call_idle hq hl
  cases e with
  | same _ hi => exact .apart (some_ne_handler (by rcases hi with rfl | rfl | rfl <;> nofun)) s.pin s.csr s.err
  | refused _ hi => exact .apart (some_ne_handler (by simp [hi])) s.pin s.csr (s.err.set .proto)
  | edge l => exact .apart (some_ne_handler (by nofun)) l (crankOfLevel l) s.err
  | ticked he => exact .ticked ((tickEnabled_iff s).1 he)
  | servicedA he =>
    obtain ⟨hp, hh⟩ := (evaEnabled_iff s).1 he
    exact .serviced .a hp nofun hh
  | servicedB he =>
    obtain ⟨hp, ha, hh⟩ := (evbEnabled_iff s).1 he
    exact .serviced .b hp (fun _ => ha) hh
  | ended _ hi _ hr => exact .ended (some_ne_handler (by rcases hi with ⟨rfl, -⟩ | ⟨rfl, -⟩ <;> nofun)) hr
  | configured p hc =>
    have hcfg := h.configured (by simp [hm])
    simp [hc] at hcfg
  | began _ _ _ _ _ hc => simp [hm] at hc
  | acknowledged _ hc => simp [hm] at hc
  | toHolding _ _ _ hc => simp [hm] at hc
  | toIdle _ _ _ hc => simp [hm] at hc
  | toOpening hq _ hs => exact (hidle hq (.inl hs)).elim
  | toClosing hq _ hs => exact (hidle hq (.inr hs)).elim
  | reset => exact absurd rfl hi

/-- A step of a running move, which no reset ends. -/
theorem moveEffect_of_step (h : Invariants s) (hm : s.fsm.mc = .run) (hstep : step s = .next t)
    (ht : t.fsm.mc ≠ .idle) : ∃ rest, MoveEffect { s with stream := rest } (nextOperation s) t := by
  obtain ⟨w, rest, hs, hperf⟩ := step_next_cases hstep
  have htaken : Invariants { s with stream := rest } := h.of_unconstrained s.pin s.csr s.err rest
  refine ⟨rest, ?_⟩
  rcases hperf with ⟨i, hd, hexec⟩ | ⟨why, hd, rfl⟩
  · have hnext : nextOperation s = some i := by simp [nextOperation, hs, hd, Decoded.instr?]
    rw [hnext]
    refine (exec_next_effect hexec).moveEffect htaken hm fun hreset => ht ?_
    subst hreset
    obtain rfl : resetRegisters { s with stream := rest } = t := by simpa [exec_sysReset] using hexec
    rfl
  · have hnext : nextOperation s = none := by simp [nextOperation, hs, hd, Decoded.instr?]
    rw [hnext]
    exact .apart (by simp) s.pin s.csr (s.err.set .ill)

/-! ## Which channel comes next -/

/-- Where the timer stands between the events of a channels A and b of B serviced so far: counting the pending ones, B
has had one more than A exactly while the count is past B's compare value. A is pending only before that value, B only
behind it, and both only with P = 0, where A never is pending alone. -/
structure Alternating (s : State) (a b : Nat) : Prop where
  raised : b + s.tif.pb.toNat = a + s.tif.pa.toNat + if s.ocrb.toNat < s.tcnt.toNat then 1 else 0
  pendingA : s.tif.pa = true → s.tcnt.toNat ≤ s.ocrb.toNat
  pendingB : s.tif.pb = true → s.ocra.toNat = 0 ∨ s.ocrb.toNat < s.tcnt.toNat
  together : s.ocra.toNat = 0 → s.tif.pa = true → s.tif.pb = true

variable {a b : Nat}

theorem Alternating.zero (h : JustArmed s) : Alternating s 0 0 := by
  obtain ⟨-, htcnt, -, htif⟩ := h
  exact ⟨by simp [htcnt, htif], by simp [htif], by simp [htif], by simp [htif]⟩

theorem matchPending_pa_toNat (htie : s.tie = ⟨true, true⟩) :
    (matchPending s).pa.toNat = if s.tcnt.toNat = s.ocra.toNat then 1 else 0 := by
  simp [matchPending, htie, matchA, BitVec.toNat_inj, Bool.toNat, Bool.cond_eq_ite]

theorem matchPending_pb_toNat (htie : s.tie = ⟨true, true⟩) :
    (matchPending s).pb.toNat = if s.tcnt.toNat = s.ocrb.toNat then 1 else 0 := by
  simp [matchPending, htie, matchB, BitVec.toNat_inj, Bool.toNat, Bool.cond_eq_ite]

theorem nextCount_toNat_eq (h : CountInPeriod s) :
    (nextCount s).toNat = if s.tcnt.toNat = s.ocra.toNat then 0 else s.tcnt.toNat + 1 := by
  rw [nextCount_toNat_of_countInPeriod h]
  split
  next hlast => rw [hlast, Nat.mod_self]
  next hlast => exact Nat.mod_eq_of_lt (Nat.succ_lt_succ (Nat.lt_of_le_of_ne h hlast))

/-- A tick raises A on the count P, from which the count starts again, and B on the count P div 2, which it then passes. -/
theorem Alternating.countTick (h : Alternating s a b) (hinv : Invariants s) (htie : s.tie = ⟨true, true⟩)
    (htif : s.tif = ⟨false, false⟩) : Alternating (countTick s) a b := by
  have hhalf : s.ocrb.toNat = s.ocra.toNat / 2 := hinv.halfPeriod
  have hcount : s.tcnt.toNat ≤ s.ocra.toNat := hinv.count
  have hnext := nextCount_toNat_eq hcount
  exact
  { raised := by
      have hraised := h.raised
      rw [htif, Bool.toNat_false] at hraised
      rw [countTick_tif, countTick_ocrb, countTick_tcnt, matchPending_pa_toNat htie, matchPending_pb_toNat htie, hnext]
      split_ifs at hraised ⊢ <;> omega
    pendingA := fun hp => by
      obtain ⟨hlast, -⟩ := (matchPending_pa_iff s).1 hp
      rw [countTick_tcnt, hnext, if_pos (congrArg _ hlast)]
      exact Nat.zero_le _
    pendingB := fun hp => by
      obtain ⟨hmid, -⟩ := (matchPending_pb_iff s).1 hp
      rw [countTick_ocra, countTick_ocrb, countTick_tcnt, hnext, hmid]
      split_ifs <;> omega
    together := fun hP hp => by
      obtain ⟨hlast, -⟩ := (matchPending_pa_iff s).1 hp
      rw [countTick_ocra] at hP
      exact (matchPending_pb_iff s).2 ⟨BitVec.eq_of_toNat_eq (by rw [hlast]; omega), by rw [htie]⟩ }

theorem Alternating.serviceA (h : Alternating s a b) (hp : s.tif.pa = true) :
    Alternating (serviceEvent .a s) (a + 1) b where
  raised := by
    have hraised := h.raised
    rwa [hp] at hraised
  pendingA := nofun
  pendingB := h.pendingB
  together := fun _ => nofun

theorem Alternating.serviceB (h : Alternating s a b) (hp : s.tif.pb = true) (hfirst : s.tif.pa = false) :
    Alternating (serviceEvent .b s) a (b + 1) where
  raised := by
    have hraised := h.raised
    rwa [hp] at hraised
  pendingA := h.pendingA
  pendingB := nofun
  together := fun _ hpa => by simp [Tif.clear, hfirst] at hpa

/-- With P = 0 channel A is never behind and at most one event ahead; otherwise B is. -/
theorem Alternating.turn (h : Alternating s a b) (hinv : Invariants s) :
    if s.ocra.toNat = 0 then b ≤ a ∧ a ≤ b + 1 else a ≤ b ∧ b ≤ a + 1 := by
  obtain ⟨hraised, hA, hB, htogether⟩ := h
  have hhalf : s.ocrb.toNat = s.ocra.toNat / 2 := hinv.halfPeriod
  have hcount : s.tcnt.toNat ≤ s.ocra.toNat := hinv.count
  split
  next hP =>
    rw [if_neg (by omega)] at hraised
    cases hpa : s.tif.pa with
    | false =>
      have := s.tif.pb.toNat_le
      rw [hpa, Bool.toNat_false] at hraised
      omega
    | true =>
      rw [hpa, htogether hP hpa] at hraised
      omega
  next hP =>
    by_cases hpast : s.ocrb.toNat < s.tcnt.toNat
    · have hpa : s.tif.pa = false := Bool.eq_false_of_not_eq_true fun hpa => by have := hA hpa; omega
      have := s.tif.pb.toNat_le
      rw [if_pos hpast, hpa, Bool.toNat_false] at hraised
      omega
    · have hpb : s.tif.pb = false := Bool.eq_false_of_not_eq_true fun hpb => hpast ((hB hpb).resolve_left hP)
      have := s.tif.pa.toNat_le
      rw [if_neg hpast, hpb, Bool.toNat_false] at hraised
      omega

/-- The table of R81: of n events A has n div 2 and B the rest, the other way round for P = 0. -/
theorem Alternating.eq_channelEvents (h : Alternating s a b) (hinv : Invariants s) :
    a = channelEvents s.ocra.toNat (a + b) .a ∧ b = channelEvents s.ocra.toNat (a + b) .b := by
  have hturn := h.turn hinv
  simp only [channelEvents]
  split_ifs at hturn ⊢ <;> omega

/-! ## The lines (R99) -/

theorem afterToggles_succ (level : Bool) (n : Nat) : afterToggles level (n + 1) = !afterToggles level n := by
  rcases Nat.mod_two_eq_zero_or_one n with h | h <;> cases level <;> simp [afterToggles, Nat.add_mod, h]

theorem lineOf_b_eq_iff (d : Dir) (l : Line) : lineOf .b d = l ↔ ¬ lineOf .a d = l := by
  cases d <;> cases l <;> decide

/-- A handler inverts its channel's line and no other. -/
theorem serviceEvent_line (s : State) (ch : Channel) (l : Line) : (serviceEvent ch s).port.line l =
    if lineOf ch s.map = l then !s.port.line l else s.port.line l := by
  split
  next h => subst h; exact toggle_line_self ..
  next h => exact toggle_line_other _ fun e => h e.symm

/-! ## A move under every schedule -/

/-- The move that began in s₀ runs in s, after a events of channel A and b of B. -/
structure InMove (s₀ : State) (a b : Nat) (s : State) : Prop where
  invariants : Invariants s
  running : s.fsm.mc = .run
  ocra : s.ocra = s₀.ocra
  map : s.map = s₀.map
  steps : s.stepcnt.toNat = a + b
  lines : ∀ l, s.port.line l = afterToggles (s₀.port.line l) (if lineOf .a s₀.map = l then a else b)
  alternating : Alternating s a b

variable {s₀ : State}

theorem InMove.start (hinv : Invariants s₀) (h : JustArmed s₀) : InMove s₀ 0 0 s₀ := by
  have halternating := Alternating.zero h
  obtain ⟨hrun, -, hsteps, -⟩ := h
  exact ⟨hinv, hrun, rfl, rfl, by simp [hsteps], fun l => by simp [afterToggles], halternating⟩

/-- No part of `InMove` speaks of PIN, CSR, ERR or the words presented. -/
theorem InMove.of_unconstrained (h : InMove s₀ a b s) (l : Level) (c : Bool) (e : Err) (ws : List Word) :
    InMove s₀ a b { s with pin := l, csr := c, err := e, stream := ws } where
  invariants := h.invariants.of_unconstrained l c e ws
  running := h.running
  ocra := h.ocra
  map := h.map
  steps := h.steps
  lines := h.lines
  alternating :=
    let ⟨hraised, hA, hB, htogether⟩ := h.alternating
    ⟨hraised, hA, hB, htogether⟩

theorem InMove.countTick (h : InMove s₀ a b s) (htif : s.tif = ⟨false, false⟩) : InMove s₀ a b (countTick s) where
  invariants := h.invariants.countTick
  running := h.running
  ocra := h.ocra
  map := h.map
  steps := h.steps
  lines := h.lines
  alternating := h.alternating.countTick h.invariants (h.invariants.enables.trans (if_pos h.running)) htif

/-- A channel's event counted on that channel: one more step, and its line inverted once more. -/
theorem InMove.serviced (h : InMove s₀ a b s) {ch : Channel} (hp : s.tif.pending ch = true)
    (hh : ¬ hold s = true) {a' b' : Nat} (hsum : a' + b' = a + b + 1)
    (hline : ∀ l, (if lineOf .a s₀.map = l then a' else b') =
      (if lineOf .a s₀.map = l then a else b) + if lineOf ch s₀.map = l then 1 else 0)
    (halternating : Alternating (serviceEvent ch s) a' b') : InMove s₀ a' b' (serviceEvent ch s) where
  invariants := h.invariants.serviceEvent hp hh
  running := h.running
  ocra := h.ocra
  map := h.map
  steps := by rw [serviceEvent_stepcnt_toNat h.invariants h.running hh, h.steps, hsum]
  lines := fun l => by
    rw [hline, serviceEvent_line, h.map, h.lines]
    split
    next => exact (afterToggles_succ ..).symm
    next => rfl
  alternating := halternating

theorem InMove.serviceA (h : InMove s₀ a b s) (hp : s.tif.pa = true) (hh : ¬ hold s = true) :
    InMove s₀ (a + 1) b (serviceEvent .a s) :=
  h.serviced (ch := .a) hp hh (by omega) (fun l => by split <;> rfl) (h.alternating.serviceA hp)

theorem InMove.serviceB (h : InMove s₀ a b s) (hp : s.tif.pb = true) (hfirst : s.tif.pa = false)
    (hh : ¬ hold s = true) : InMove s₀ a (b + 1) (serviceEvent .b s) :=
  h.serviced (ch := .b) hp hh (by omega)
    (fun l => by simp only [lineOf_b_eq_iff, ite_not]; split <;> rfl) (h.alternating.serviceB hp hfirst)

theorem eventsWith_of_ne {i : Instr} (h : nextOperation s ≠ some i) (n : Nat) : eventsWith i s n = n := if_neg h

theorem eventsWith_of_eq {i : Instr} (h : nextOperation s = some i) (n : Nat) : eventsWith i s n = n + 1 := if_pos h

/-- The move that began in s₀ has come to s, after a events of channel A and b of B: it runs, or it has ended with the
count and the lines of the last state it ran in. -/
def InOrAfterMove (s₀ : State) (a b : Nat) (s : State) : Prop :=
  InMove s₀ a b s ∨ s.fsm.mc = .done ∧ ∃ r, InMove s₀ a b r ∧ s.stepcnt = r.stepcnt ∧ s.port = r.port

theorem InOrAfterMove.lastRunning (h : InOrAfterMove s₀ a b s) :
    ∃ r, InMove s₀ a b r ∧ s.stepcnt = r.stepcnt ∧ s.port = r.port := by
  rcases h with h | ⟨-, h⟩
  · exact ⟨s, h, rfl, rfl⟩
  · exact h

theorem InMove.step (h : InMove s₀ a b s) (hstep : step s = .next t) (ht : t.fsm.mc ≠ .idle) :
    InOrAfterMove s₀ (eventsWith .ctdEva s a) (eventsWith .ctdEvb s b) t := by
  obtain ⟨rest, e⟩ := moveEffect_of_step h.invariants h.running hstep ht
  have htaken : InMove s₀ a b { s with stream := rest } := h.of_unconstrained s.pin s.csr s.err rest
  generalize hnext : nextOperation s = o at e
  cases e with
  | apart ho pin csr err =>
    rw [eventsWith_of_ne (hnext ▸ ho .a), eventsWith_of_ne (hnext ▸ ho .b)]
    exact .inl (h.of_unconstrained pin csr err rest)
  | ended ho _ =>
    rw [eventsWith_of_ne (hnext ▸ ho .a), eventsWith_of_ne (hnext ▸ ho .b)]
    exact .inr ⟨rfl, _, htaken, rfl, rfl⟩
  | ticked htif =>
    rw [eventsWith_of_ne (by simp [hnext]), eventsWith_of_ne (by simp [hnext])]
    exact .inl (htaken.countTick htif)
  | serviced ch hp hfirst hh =>
    cases ch with
    | a =>
      rw [eventsWith_of_eq (i := .ctdEva) hnext, eventsWith_of_ne (by simp [hnext, handler])]
      exact .inl (htaken.serviceA hp hh)
    | b =>
      rw [eventsWith_of_ne (by simp [hnext, handler]), eventsWith_of_eq (i := .ctdEvb) hnext]
      exact .inl (htaken.serviceB hp (hfirst rfl) hh)

theorem MoveRun.inOrAfterMove (hinv : Invariants s₀) (harmed : JustArmed s₀) (h : MoveRun s₀ a b s) :
    InOrAfterMove s₀ a b s := by
  induction h with
  | start => exact .inl (.start hinv harmed)
  | step _ hm hstep ht ih =>
    rcases ih with hin | ⟨hdone, -⟩
    · exact hin.step hstep ht
    · simp [hm] at hdone

theorem InMove.line_eq (h : InMove s₀ a b s) (l : Line) :
    s.port.line l = afterToggles (s₀.port.line l) (lineToggles s₀.ocra.toNat (a + b) s₀.map l) := by
  obtain ⟨hA, hB⟩ := h.alternating.eq_channelEvents h.invariants
  rw [h.ocra] at hA hB
  rw [h.lines l, lineToggles]
  split
  · exact congrArg _ hA
  · exact congrArg _ hB

end

/-! ## The obligations -/

/-- Settles O50, by induction on the run of the move: the channels alternate by where the timer stands. -/
theorem channelsAlternateInEveryMove : Obligations.ChannelsAlternateInEveryMove := by
  intro s₀ s a b hinv harmed hrun
  obtain ⟨r, hin, hsteps, hport⟩ := (hrun.inOrAfterMove hinv harmed).lastRunning
  obtain ⟨hA, hB⟩ := hin.alternating.eq_channelEvents hin.invariants
  rw [hin.ocra] at hA hB
  rw [hsteps, hport]
  exact ⟨hin.steps, hA, hB, hin.line_eq⟩

/-- Settles O24: at the hold's bound the target is reached, so the poll ends the move. -/
theorem holdIsLiftedByThePoll : Obligations.HoldIsLiftedByThePoll := by
  intro s hinv hm hle
  have hheld : hold s = true := (hold_iff s).2 ⟨hm, hle⟩
  have hr : targetReached s = true := (targetReached_iff s).2 ((Nat.le_add_right ..).trans hle)
  refine ⟨fun t ht => ?_, fun t ht => ?_, _, exec_pollingOperation_running hinv hm, ?_⟩
  · obtain ⟨he, -⟩ := exec_ctdEva_next.1 ht
    obtain ⟨-, hh⟩ := (evaEnabled_iff s).1 he
    exact hh hheld
  · obtain ⟨he, -⟩ := exec_ctdEvb_next.1 ht
    obtain ⟨-, -, hh⟩ := (evbEnabled_iff s).1 he
    exact hh hheld
  · rw [pollMove_of_reached hr]
    exact ⟨rfl, rfl, rfl, rfl⟩

/-- Settles O48: the poll ends the move at once; with OVERSHOOT_MAX ≥ 1 there is no hold at the target, so the handler
may come first. -/
theorem bothFinalCountsAreAdmitted : Obligations.BothFinalCountsAreAdmitted := by
  intro s hinv hd hmax hm heq htif
  have hh : ¬ hold s = true := fun hheld => by
    obtain ⟨-, hle⟩ := (hold_iff s).1 hheld
    rw [heq] at hle
    omega
  have hstep := serviceEvent_stepcnt_toNat hinv hm hh .b
  rw [heq] at hstep
  constructor
  · exact ⟨_, exec_mcPoll_reached hd hm (by rw [heq]), rfl, by rw [← heq]; rfl⟩
  · have hb : evbEnabled s = true := (evbEnabled_iff s).2 ⟨by rw [htif], by rw [htif], hh⟩
    have hreached : (serviceEvent .b s).target.toNat ≤ (serviceEvent .b s).stepcnt.toNat := by
      rw [hstep]
      exact Nat.le_succ _
    exact ⟨_, _, exec_ctdEvb_next.2 ⟨hb, rfl⟩, exec_mcPoll_reached hd hm hreached, rfl, hstep⟩

/-- Settles O49: with an enable on a move runs, and of its changes only a serviced event counts a step. -/
theorem stepCounterIsMonotoneInAMove : Obligations.StepCounterIsMonotoneInAMove := by
  intro i s t hinv htie hi hexec
  have hm : s.fsm.mc = .run := by
    by_contra hm
    exact htie (hinv.quiescent hm).1
  cases (exec_next_effect hexec).moveEffect hinv hm hi with
  | serviced ch _ _ hh =>
    rw [serviceEvent_stepcnt_toNat hinv hm hh]
    exact ⟨Nat.le_succ _, le_rfl⟩
  | apart | ticked | ended => exact ⟨le_rfl, Nat.le_succ _⟩

/-- Settles O11: the handler's enabling condition, then its writes under either assignment. -/
theorem ctdEvaServicesChannelA : Obligations.CtdEvaServicesChannelA := by
  intro s
  simp only [← hold_iff]
  constructor
  · simp [exec_ctdEva_next, evaEnabled_iff]
  · intro hp hh
    refine exec_ctdEva_next.2 ⟨(evaEnabled_iff s).2 ⟨hp, hh⟩, ?_⟩
    rw [serviceEvent, stepcnt_succ_eq]
    cases s.map <;> rfl

/-- Settles O12: the handler's enabling condition, then its writes under either assignment. -/
theorem ctdEvbServicesChannelB : Obligations.CtdEvbServicesChannelB := by
  intro s
  simp only [← hold_iff]
  constructor
  · simp [exec_ctdEvb_next, evbEnabled_iff]
  · intro hp hfirst hh
    refine exec_ctdEvb_next.2 ⟨(evbEnabled_iff s).2 ⟨hp, hfirst, hh⟩, ?_⟩
    rw [serviceEvent, stepcnt_succ_eq]
    cases s.map <;> rfl

end Sys2Proof.Machine
end

section
/-! PROOFS. Family 42_crank_sense_monitor.md: CSM.EDGE (R84, R85), the inversion law between the pin and CRANK (R86, R87),
and who reads them (R88). -/

namespace Sys2Proof.Machine

section
variable {s t : State} {i : Instr} {l : Level}

/-! ## Who writes the pin and CRANK -/

/-- CrankState is the inverse of the level (R84). -/
theorem crankOfLevel_eq_true_iff (l : Level) : crankOfLevel l = true ↔ l = .low := by
  cases l <;> simp [crankOfLevel]

theorem exec_csmEdge_same (h : l = s.pin) : exec (.csmEdge l) s = .next s := by
  rw [exec_csmEdge, if_pos h]

theorem exec_csmEdge_edge (h : l ≠ s.pin) : exec (.csmEdge l) s = .next (samplePin l s) := by
  rw [exec_csmEdge, if_neg h]

/-- What an operation can do to the pin and CRANK: leave both, sample them at an edge, or reset (R84, R114). -/
theorem Effect.pin_and_csr (e : Effect s i t) :
    (t.pin = s.pin ∧ t.csr = s.csr) ∨ (∃ l, i = .csmEdge l ∧ l ≠ s.pin ∧ t = samplePin l s) ∨
      (i = .sysReset ∧ t = resetRegisters s) := by
  cases e with
  | edge l h => exact .inr (.inl ⟨l, rfl, h, rfl⟩)
  | reset => exact .inr (.inr ⟨rfl, rfl⟩)
  | began _ d angle =>
    rw [beginMove_frame]
    exact .inl ⟨rfl, rfl⟩
  | _ => exact .inl ⟨rfl, rfl⟩

end

/-! ## Who reads them (R88)

An operation reads neither register where putting other values into them before it comes to the same as putting them there
after it. -/

/-- The state with the pin at a level, and with CRANK made something else: `id` keeps it, a constant replaces it. -/
def resense (l : Level) (k : Bool → Bool) (s : State) : State := { s with pin := l, csr := k s.csr }

/-- The update neither reads nor writes what `resense l k` changes. -/
def CrankBlind (l : Level) (k : Bool → Bool) (f : State → State) : Prop :=
  ∀ s, f (resense l k s) = resense l k (f s)

section
variable {l : Level} {k : Bool → Bool}

/-- A choice on a condition that reads neither register. -/
theorem CrankBlind.ite {c : State → Prop} [DecidablePred c] {f g : State → State}
    (hc : ∀ s, c (resense l k s) ↔ c s) (hf : CrankBlind l k f) (hg : CrankBlind l k g) :
    CrankBlind l k fun s => if c s then f s else g s := by
  intro s
  simp only [hc, hf s, hg s, apply_ite (resense l k)]

/-- A legality check that reads neither register. -/
theorem CrankBlind.require {c : State → Bool} {e : ErrBit} {f : State → State}
    (hc : ∀ s, c (resense l k s) = c s) (hf : CrankBlind l k f) :
    CrankBlind l k fun s => require (c s) e f s :=
  .ite (fun s => by rw [hc]) hf fun _ => rfl

theorem CrankBlind.requireMode (m : HostMode) {f : State → State} (hf : CrankBlind l k f) :
    CrankBlind l k (requireMode m f) :=
  .require (c := fun s => s.params.hostMode == m) (fun _ => rfl) hf

theorem armMove_crankBlind (n : Nat) : CrankBlind l k (armMove n) :=
  .ite (c := fun s => s.params.targetMax < n) (fun _ => .rfl) (fun _ => rfl)
    (.ite (c := fun _ => n = 0) (fun _ => .rfl) (fun _ => rfl) fun _ => rfl)

theorem beginMove_crankBlind (d : Dir) (angle : Nat) : CrankBlind l k (beginMove d angle) :=
  fun s => armMove_crankBlind (stepsOfAngle s.params.angleArith angle) (clearSteps (ctdInstall d s))

theorem mcStart_crankBlind (d : Dir) (angle : Nat) : CrankBlind l k (mcStart d angle) :=
  .require (c := fun s => s.cfg && s.fsm.mc == .idle) (fun _ => rfl) (beginMove_crankBlind d angle)

theorem pollMove_crankBlind : CrankBlind l k pollMove :=
  .ite (c := fun s => targetReached s = true) (fun _ => .rfl) (fun _ => rfl) fun _ => rfl

theorem mcPoll_crankBlind : CrankBlind l k mcPoll :=
  .require (c := fun s => s.fsm.mc == .run) (fun _ => rfl) pollMove_crankBlind

theorem mcAck_crankBlind : CrankBlind l k mcAck :=
  .require (c := fun s => s.fsm.mc == .done) (fun _ => rfl) fun _ => rfl

theorem mclMove_crankBlind (d : Dir) {onReturn : State → State} (hr : CrankBlind l k onReturn) :
    CrankBlind l k (mclMove d onReturn) := by
  intro s
  have hfsm : (resense l k s).fsm = s.fsm := rfl
  cases hm : s.fsm.mc with
  | idle =>
    simp only [mclMove, hfsm, hm]
    exact mcStart_crankBlind d s.params.moveAngle.val s
  | run => simp only [mclMove, hfsm, hm, mcPoll_crankBlind s]
  | done => simp only [mclMove, hfsm, hm, mcAck_crankBlind s, hr (mcAck s)]

theorem mclOpening_crankBlind : CrankBlind l k mclOpening :=
  fun s => mclMove_crankBlind s.params.openDir (onReturn := setMcl .holding) (fun _ => rfl) s

theorem mclClosing_crankBlind : CrankBlind l k mclClosing :=
  fun s => mclMove_crankBlind s.params.openDir.flip
    (onReturn := fun u => setStatus false (setMcl .idle u)) (fun _ => rfl) s

/-- Idle reads CRANK, not the pin (R105). -/
theorem mclIdle_pinBlind : CrankBlind l id mclIdle :=
  .ite (c := fun s => s.csr = true) (fun _ => .rfl) (fun _ => rfl) fun _ => rfl

/-- Holding reads CRANK, not the pin (R107). -/
theorem mclHolding_pinBlind : CrankBlind l id mclHolding :=
  .ite (c := fun s => s.csr = true) (fun _ => .rfl) (fun _ => rfl) fun _ => rfl

/-- Of the four arms only Idle's and Holding's read CRANK, and none reads the pin (R104, R88). -/
theorem mclArm_pinBlind : CrankBlind l id mclArm := by
  intro s
  have hfsm : (resense l id s).fsm = s.fsm := rfl
  cases hl : s.fsm.mcl with
  | idle => simp only [mclArm, hfsm, hl, mclIdle_pinBlind s]
  | opening => simp only [mclArm, hfsm, hl, mclOpening_crankBlind s]
  | holding => simp only [mclArm, hfsm, hl, mclHolding_pinBlind s]
  | closing => simp only [mclArm, hfsm, hl, mclClosing_crankBlind s]

/-- MCL.STEP reads CRANK and not the pin. -/
theorem mclStep_pinBlind : CrankBlind l id fun s => requireMode .sequencer (require s.cfg .proto mclArm) s :=
  .require (c := fun s => s.params.hostMode == .sequencer) (fun _ => rfl)
    (.require (c := State.cfg) (fun _ => rfl) mclArm_pinBlind)

/-- What `resense` changes does not decide the operation's outcome, and the operation leaves it as it is. -/
def OutcomeCrankBlind (l : Level) (k : Bool → Bool) (i : Instr) : Prop :=
  ∀ s, (∀ t, exec i s = .next t → exec i (resense l k s) = .next (resense l k t)) ∧
    (∀ f, exec i s = .fault f → exec i (resense l k s) = .fault f)

/-- An operation that answers a next state in every state. -/
theorem CrankBlind.outcome {i : Instr} {g : State → State} (hg : CrankBlind l k g)
    (hi : ∀ s, exec i s = .next (g s)) : OutcomeCrankBlind l k i := by
  intro s
  simp [hi, hg s]

/-- An operation that is enabled on a condition that reads neither register. -/
theorem CrankBlind.outcome_of_enabled {i : Instr} {c : State → Bool} {g : State → State} {e : Fault}
    (hg : CrankBlind l k g) (hi : ∀ s, exec i s = if c s then .next (g s) else .fault e)
    (hc : ∀ s, c (resense l k s) = c s) : OutcomeCrankBlind l k i := by
  intro s
  cases h : c s <;> simp [hi, hc, h, hg s]

/-- The operations that neither read nor write the pin and CRANK. -/
theorem outcomeCrankBlind_of_ne {i : Instr} (hstep : i ≠ .mclStep) (hedge : ∀ l', i ≠ .csmEdge l')
    (hreset : i ≠ .sysReset) : OutcomeCrankBlind l k i := by
  cases i with
  | tpgConfig p =>
    exact (CrankBlind.require (c := fun s => !s.cfg) (f := setPeriod p) (fun _ => rfl) fun _ => rfl).outcome
      fun _ => rfl
  | tpgTick =>
    exact CrankBlind.outcome_of_enabled (c := tickEnabled) (g := countTick) (fun _ => rfl) (fun _ => rfl)
      fun _ => rfl
  | ctdEva =>
    exact CrankBlind.outcome_of_enabled (c := evaEnabled) (g := serviceEvent .a) (fun _ => rfl) (fun _ => rfl)
      fun _ => rfl
  | ctdEvb =>
    exact CrankBlind.outcome_of_enabled (c := evbEnabled) (g := serviceEvent .b) (fun _ => rfl) (fun _ => rfl)
      fun _ => rfl
  | csmEdge l' => exact absurd rfl (hedge l')
  | mcStart d angle => exact ((mcStart_crankBlind d angle).requireMode .direct).outcome (exec_mcStart d angle)
  | mcPoll => exact (mcPoll_crankBlind.requireMode .direct).outcome exec_mcPoll
  | mcAck => exact (mcAck_crankBlind.requireMode .direct).outcome exec_mcAck
  | mclStep => exact absurd rfl hstep
  | sysReset => exact absurd rfl hreset

end

/-! ## The obligations -/

/-- Settles O13, the two cases of CSM.EDGE. -/
theorem csmEdgeSamplesInvertedLevel : Obligations.CsmEdgeSamplesInvertedLevel := by
  refine fun l s => ⟨fun h => ?_, exec_csmEdge_same⟩
  rw [exec_csmEdge_edge h]
  cases l <;> rfl

/-- Settles O37: an edge samples the inverse; whatever else changes the pin or CRANK is SYS.RESET. -/
theorem inversionLawHoldsFromTheFirstEdge : Obligations.InversionLawHoldsFromTheFirstEdge := by
  refine ⟨fun l s h => ⟨_, exec_csmEdge_edge h, crankOfLevel_eq_true_iff l⟩, fun i s t hi hlaw h => ?_⟩
  rcases (exec_next_effect h).pin_and_csr with ⟨hpin, hcsr⟩ | ⟨l, -, -, rfl⟩ | ⟨rfl, -⟩
  · rwa [hpin, hcsr]
  · exact crankOfLevel_eq_true_iff l
  · exact absurd rfl hi

/-- Settles O38: SYS.RESET clears CRANK and keeps the pin, and with the pin low the one edge there is goes high. -/
theorem crankIsFalseAfterResetUntilAnEdge : Obligations.CrankIsFalseAfterResetUntilAnEdge := by
  refine fun s hlow => ⟨⟨_, exec_sysReset s, hlow, rfl⟩, fun i t hcsr hi h => ?_⟩
  rcases (exec_next_effect h).pin_and_csr with ⟨hpin, hcsr'⟩ | ⟨l, rfl, hl, -⟩ | ⟨-, rfl⟩
  · exact ⟨hpin.trans hlow, hcsr'.trans hcsr⟩
  · cases l with
    | low => exact absurd hlow.symm hl
    | high => exact absurd rfl hi
  · exact ⟨hlow, rfl⟩

/-- Settles O40. SYS.RESET reads neither register but writes CRANK, so the two outcomes then agree on it. -/
theorem crankReadOnlyByTheSequencer : Obligations.CrankReadOnlyByTheSequencer := by
  refine ⟨fun i s l c hstep hedge => ?_, fun l s c => ?_, fun s l => ⟨_, exec_mclStep s, ?_⟩⟩
  · by_cases hreset : i = .sysReset
    · subst hreset
      simp only [exec_sysReset]
      exact ⟨fun t h => ⟨false, by cases h; rfl⟩, fun f h => by cases h⟩
    · obtain ⟨hnext, hfault⟩ := outcomeCrankBlind_of_ne (l := l) (k := fun _ => c) hstep hedge hreset s
      exact ⟨fun t h => ⟨c, hnext t h⟩, hfault⟩
  · by_cases hl : l = s.pin
    · exact ⟨s, exec_csmEdge_same hl, by rw [exec_csmEdge_same (s := { s with csr := c }) hl, if_pos hl]⟩
    · exact ⟨_, exec_csmEdge_edge hl, by rw [exec_csmEdge_edge (s := { s with csr := c }) hl, if_neg hl]; rfl⟩
  · exact congrArg Host.Outcome.next (mclStep_pinBlind (l := l) s)

end Sys2Proof.Machine
end

section
/-! PROOFS. Family 43_motion_controller.md: the three calls (R91, R95, R96), the angles they take (R90, R93), how a move
ends (R97, R98, R102) and what two opposite moves do to the lines (R100). -/

namespace Sys2Proof.Machine

section
variable {s t : State} {i : Instr}

/-! ## The calls (R91 to R96) -/

/-- A call's word is refused in HOST_MODE Sequencer, and in Direct mode where the call itself is (R60, R120). -/
theorem requireMode_direct_refused {f : State → State}
    (h : s.params.hostMode = .sequencer ∨ f s = raiseErr .proto s) : requireMode .direct f s = raiseErr .proto s := by
  by_cases hd : s.params.hostMode = .direct
  · rw [requireMode_self hd]
    exact h.resolve_left (by simp [hd])
  · exact requireMode_other hd f

/-- Beginning a move does what R91 to R93 say of its number of steps. -/
theorem moveBegun_beginMove (d : Dir) (angle : Nat) (s : State) :
    MoveBegun s d (stepsOfAngle s.params.angleArith angle) (beginMove d angle s) := by
  have hmax : s.params.targetMax = 255 - s.params.overshootMax := rfl
  rcases beginMove_cases d angle s with ⟨hout, e⟩ | ⟨hzero, e⟩ | ⟨h1, hle, e⟩ <;> rw [e]
  · exact ⟨fun _ => rfl, fun _ => by omega, fun _ _ => by omega⟩
  · exact ⟨fun _ => by omega, fun _ => rfl, fun _ _ => by omega⟩
  · exact ⟨fun _ => by omega, fun _ => by omega, fun _ _ =>
      ⟨setTarget_toNat (s := clearSteps (ctdInstall d s)) (hle.trans (Nat.sub_le ..)), rfl⟩⟩

/-- A poll does what R95 says. -/
theorem movePolled_pollMove (s : State) : MovePolled s (pollMove s) := by
  rcases pollMove_cases s with ⟨hr, e⟩ | ⟨hr, e⟩ <;> rw [e]
  · have hle := (targetReached_iff s).1 hr
    exact ⟨fun _ => rfl, fun hlt => by omega⟩
  · have hlt : ¬ s.target.toNat ≤ s.stepcnt.toNat := fun hle => by simp [(targetReached_iff s).2 hle] at hr
    exact ⟨fun hle => absurd hle hlt, fun _ => rfl⟩

/-! ## What ends a move (R98) -/

/-- Only a poll that finds the target reached, and SYS.RESET, take the motion controller out of MC_RUN. -/
theorem Effect.leaves_run (e : Effect s i t) (hs : s.fsm.mc = .run) (ht : t.fsm.mc ≠ .run) :
    i = .sysReset ∨
      ((i = .mcPoll ∨ i = .mclStep) ∧ targetReached s = true ∧ t = setMc .done (tpgIrqDisable s)) := by
  cases e with
  | reset => exact .inl rfl
  | ended _ hi _ hr => exact .inr ⟨hi.imp And.left And.left, hr, rfl⟩
  | began _ _ _ _ _ hm => simp [hs] at hm
  | acknowledged _ hm => simp [hs] at hm
  | toHolding _ _ _ hm => simp [hs] at hm
  | toIdle _ _ _ hm => simp [hs] at hm
  | _ => exact absurd hs ht

/-! ## The eager move up to its target (R68, R102) -/

variable {a : State} {n : Nat}

/-- Up to the tick T(target) every tick is taken: before it nothing is pending, whatever the hold's bound. -/
theorem AfterTicks.tick_final_to_target (hm : a.fsm.mc = .run) (m : Nat) (h : AfterTicks a n t)
    (hT : eventTick a.ocra.toNat a.target.toNat = n + m) :
    AfterTicks a (eventTick a.ocra.toNat a.target.toNat) (tick m t).final := by
  induction m generalizing n t with
  | zero => exact hT ▸ h
  | succ m ih =>
    have hr : targetReached t = false :=
      Bool.eq_false_of_not_eq_true fun hr => by have := (h.targetReached_iff hm).1 hr; omega
    have hf := h.tif_of_not_reached hr
    obtain ⟨hnext, -⟩ := h.tick_one hm hf
    rw [tick_succ_final hf] at hnext ⊢
    exact ih hnext (by omega)

/-! ## A running move under a fair schedule (R102, R152)

In each state of a running move one operation is the one to wait for. No other operation takes it away without bringing
the end of the move nearer, and performing it does bring the end nearer or is the end. -/

/-- The operation a running move waits for: the poll once the target is reached, else the handler of the event that
comes first, else the tick. -/
def awaited (s : State) : Instr :=
  if targetReached s then pollingOperation s.params.hostMode
  else if s.tif.pa then .ctdEva
  else if s.tif.pb then .ctdEvb
  else .tpgTick

/-- When an awaited operation is enabled, in the terms of R152; a poll is while a move runs. -/
def awaitedEnabled : Instr → State → Bool
  | .tpgTick => tickEnabled
  | .ctdEva => evaEnabled
  | .ctdEvb => evbEnabled
  | _ => moveRunning

/-- How far the target is: first the steps to it, each of more than a whole period's ticks, then the ticks until the
count is sure to raise an event. -/
def distance (s : State) : Nat :=
  if targetReached s then 0
  else (s.target.toNat - s.stepcnt.toNat) * 257 + if s.tif.any then 0 else 1 + s.ocra.toNat - s.tcnt.toNat

/-- The end of the move that runs in s has come, or come nearer, in t. -/
def Nearer (s t : State) : Prop := t.fsm.mc = .done ∨ t.fsm.mc = .run ∧ distance t < distance s

/-- The move that runs in s waits in t for the same operation, as far from its end. -/
def Waiting (s t : State) : Prop := t.fsm.mc = .run ∧ distance t = distance s ∧ awaited t = awaited s

theorem not_reached_iff (s : State) : targetReached s = false ↔ s.stepcnt.toNat < s.target.toNat := by
  simp [targetReached]

theorem not_hold_of_not_reached (hr : targetReached s = false) : ¬ hold s = true := fun hh => by
  obtain ⟨-, hle⟩ := (hold_iff s).1 hh
  have := (not_reached_iff s).1 hr
  omega

theorem awaited_of_reached (hr : targetReached s = true) : awaited s = pollingOperation s.params.hostMode := by
  simp [awaited, hr]

/-- Short of the target the move waits for the handler of the first event pending, or with none pending for the tick. -/
theorem awaited_of_not_reached (hr : targetReached s = false) :
    (∃ ch, s.tif.pending ch = true ∧ (ch = .b → s.tif.pa = false) ∧ awaited s = handler ch) ∨
      s.tif = ⟨false, false⟩ ∧ awaited s = .tpgTick := by
  rcases htif : s.tif with ⟨_ | _, _ | _⟩
  · exact .inr ⟨rfl, by simp [awaited, hr, htif]⟩
  · exact .inl ⟨.b, rfl, fun _ => rfl, by simp [awaited, hr, htif, handler]⟩
  all_goals exact .inl ⟨.a, rfl, nofun, by simp [awaited, hr, htif, handler]⟩

theorem awaitedEnabled_poll (m : HostMode) : awaitedEnabled (pollingOperation m) = moveRunning := by
  cases m <;> rfl

theorem awaitedEnabled_handler {ch : Channel} (hp : s.tif.pending ch = true) (hfirst : ch = .b → s.tif.pa = false)
    (hh : ¬ hold s = true) : awaitedEnabled (handler ch) s = true := by
  cases ch with
  | a => exact (evaEnabled_iff s).2 ⟨hp, hh⟩
  | b => exact (evbEnabled_iff s).2 ⟨hp, hfirst rfl, hh⟩

theorem exec_handler_eq {ch : Channel} (h : exec (handler ch) s = .next t) : t = serviceEvent ch s := by
  cases ch with
  | a => exact (exec_ctdEva_next.1 h).2
  | b => exact (exec_ctdEvb_next.1 h).2

/-- The awaited operation is enabled: short of the target there is no hold. -/
theorem awaitedEnabled_awaited (hm : s.fsm.mc = .run) : awaitedEnabled (awaited s) s = true := by
  cases hr : targetReached s with
  | true =>
    rw [awaited_of_reached hr, awaitedEnabled_poll, moveRunning, hm]
    rfl
  | false =>
    rcases awaited_of_not_reached hr with ⟨ch, hp, hfirst, e⟩ | ⟨htif, e⟩ <;> rw [e]
    · exact awaitedEnabled_handler hp hfirst (not_hold_of_not_reached hr)
    · exact (tickEnabled_iff s).2 htif

theorem distance_of_reached (hr : targetReached s = true) : distance s = 0 := if_pos hr

theorem distance_of_not_reached (hr : targetReached s = false) : distance s =
    (s.target.toNat - s.stepcnt.toNat) * 257 + if s.tif.any then 0 else 1 + s.ocra.toNat - s.tcnt.toNat :=
  if_neg (by simp [hr])

/-- A tick short of the target raises an event, or brings the count nearer to the last of the period. -/
theorem distance_countTick_lt (h : Invariants s) (hm : s.fsm.mc = .run) (htif : s.tif = ⟨false, false⟩)
    (hr : targetReached s = false) : distance (countTick s) < distance s := by
  have htie : s.tie = ⟨true, true⟩ := h.enables.trans (if_pos hm)
  have hcount : s.tcnt.toNat ≤ s.ocra.toNat := h.count
  have hnone : s.tif.any = false := by simp [htif, Tif.any]
  rw [distance_of_not_reached hr, distance_of_not_reached (s := countTick s) hr, hnone, countTick_tif]
  refine Nat.add_lt_add_left ?_ _
  rw [countTick_ocra, countTick_tcnt, nextCount_toNat_eq hcount, if_neg Bool.false_ne_true]
  by_cases hlast : s.tcnt.toNat = s.ocra.toNat
  · have hpa := (matchPending_pa_iff s).2 ⟨BitVec.eq_of_toNat_eq hlast, by rw [htie]⟩
    rw [if_pos (by simp [Tif.any, hpa])]
    omega
  · rw [if_neg hlast]
    split <;> omega

/-- A serviced event is one step less to the target, which outweighs the ticks of the period that may have to follow. -/
theorem distance_serviceEvent_lt (h : Invariants s) (hm : s.fsm.mc = .run) {ch : Channel}
    (hp : s.tif.pending ch = true) (hr : targetReached s = false) :
    distance (serviceEvent ch s) < distance s := by
  have hstep := serviceEvent_stepcnt_toNat h hm (not_hold_of_not_reached hr) ch
  have hany : s.tif.any = true := by
    cases ch with
    | a => simp [Tif.any, show s.tif.pa = true from hp]
    | b => simp [Tif.any, show s.tif.pb = true from hp]
  have hshort := (not_reached_iff s).1 hr
  have hperiod := s.ocra.isLt
  rw [distance_of_not_reached hr, hany, if_pos rfl]
  cases hr' : targetReached (serviceEvent ch s) with
  | true =>
    rw [distance_of_reached hr']
    omega
  | false =>
    rw [distance_of_not_reached hr', hstep, serviceEvent_target, serviceEvent_ocra, serviceEvent_tcnt]
    split <;> omega

/-- A reached target stays reached until the move ends. -/
theorem MoveEffect.reached {o : Option Instr} (e : MoveEffect s o t) (h : Invariants s) (hm : s.fsm.mc = .run)
    (hr : targetReached s = true) : targetReached t = true := by
  cases e with
  | apart | ticked | ended => exact hr
  | serviced ch _ _ hh =>
    rw [targetReached_iff, serviceEvent_target, serviceEvent_stepcnt_toNat h hm hh]
    exact Nat.le_succ_of_le ((targetReached_iff s).1 hr)

theorem MoveEffect.running_or_done {o : Option Instr} (e : MoveEffect s o t) (hm : s.fsm.mc = .run) :
    t.fsm.mc = .run ∨ t.fsm.mc = .done := by
  cases e with
  | ended => exact .inr rfl
  | apart | ticked | serviced => exact .inl hm

theorem MoveEffect.params {o : Option Instr} (e : MoveEffect s o t) : t.params = s.params := by
  cases e <;> rfl

/-- A step of a running move brings the end nearer, or the move waits for the same operation as before. -/
theorem MoveEffect.nearer_or_waiting {o : Option Instr} (e : MoveEffect s o t) (h : Invariants s)
    (hm : s.fsm.mc = .run) : Nearer s t ∨ Waiting s t := by
  rcases e.running_or_done hm with hrun | hdone
  · cases hr : targetReached s with
    | true =>
      have hr' := e.reached h hm hr
      refine .inr ⟨hrun, ?_, ?_⟩
      · rw [distance_of_reached hr, distance_of_reached hr']
      · rw [awaited_of_reached hr, awaited_of_reached hr', e.params]
    | false =>
      cases e with
      | apart => exact .inr ⟨hm, rfl, rfl⟩
      | ticked htif => exact .inl (.inr ⟨hm, distance_countTick_lt h hm htif hr⟩)
      | serviced ch hp => exact .inl (.inr ⟨hm, distance_serviceEvent_lt h hm hp hr⟩)
      | ended _ hr' => simp [hr] at hr'
  · exact .inl (.inl hdone)

/-- Performing the awaited operation brings the end nearer: the poll ends the move, a handler counts a step towards the
target, a tick counts towards the next event. -/
theorem nearer_of_awaited (h : Invariants s) (hm : s.fsm.mc = .run) (hexec : exec (awaited s) s = .next t) :
    Nearer s t := by
  cases hr : targetReached s with
  | true =>
    rw [awaited_of_reached hr, exec_pollingOperation_running h hm, pollMove_of_reached hr] at hexec
    cases hexec
    exact .inl rfl
  | false =>
    rcases awaited_of_not_reached hr with ⟨ch, hp, -, e⟩ | ⟨htif, e⟩ <;> rw [e] at hexec
    · rw [exec_handler_eq hexec]
      exact .inr ⟨hm, distance_serviceEvent_lt h hm hp hr⟩
    · obtain ⟨-, rfl⟩ := exec_tpgTick_next.1 hexec
      exact .inr ⟨hm, distance_countTick_lt h hm htif hr⟩

end

/-! ## Weak fairness -/

section
variable {ops : Nat → Instr} {states : Nat → State}

/-- An operation that is enabled wherever C holds, and cannot lose C without G, is performed in C or gives way to G:
so if performing it in C brings G as well, G comes (the rule of weak fairness). -/
theorem WeaklyFair.leads_to {enabled : State → Bool} {op : Instr} (hfair : WeaklyFair enabled op ops states)
    {C G : State → Prop} (henabled : ∀ s, C s → enabled s = true)
    (hkeep : ∀ k, C (states k) → G (states (k + 1)) ∨ C (states (k + 1)))
    (hperform : ∀ k, C (states k) → ops k = op → G (states (k + 1))) {n : Nat} (hn : C (states n)) :
    ∃ k, n < k ∧ G (states k) := by
  by_contra hnone
  have hstay : ∀ m, n ≤ m → C (states m) := fun m hm => by
    induction m, hm using Nat.le_induction with
    | base => exact hn
    | succ m hm ih => exact (hkeep m ih).resolve_left fun hG => hnone ⟨m + 1, Nat.lt_succ_of_le hm, hG⟩
  obtain ⟨m, hm, hop⟩ := hfair n fun m hm => henabled _ (hstay m hm)
  exact hnone ⟨m + 1, Nat.lt_succ_of_le hm, hperform m (hstay m hm) hop⟩

theorem IsExecution.params (h : IsExecution ops states) (n : Nat) : (states n).params = (states 0).params := by
  induction n with
  | zero => rfl
  | succ n ih => exact (scheduleAndParametersUntouched _ _ _ (h n)).2.trans ih

theorem Waiting.nearer {s t u : State} (h : Waiting s t) (h' : Nearer t u) : Nearer s u := by
  obtain ⟨-, hd, -⟩ := h
  exact h'.imp_right fun ⟨hu, hlt⟩ => ⟨hu, hd ▸ hlt⟩

theorem Waiting.trans {s t u : State} (h : Waiting s t) (h' : Waiting t u) : Waiting s u := by
  obtain ⟨-, hd, ha⟩ := h
  obtain ⟨hu, hd', ha'⟩ := h'
  exact ⟨hu, hd'.trans hd, ha'.trans ha⟩

/-- Fairness to TIMER, the two handlers and the polling foreground is fairness to whatever a move waits for. -/
theorem weaklyFair_awaited (htick : WeaklyFair tickEnabled .tpgTick ops states)
    (heva : WeaklyFair evaEnabled .ctdEva ops states) (hevb : WeaklyFair evbEnabled .ctdEvb ops states) {s : State}
    (hpoll : WeaklyFair moveRunning (pollingOperation s.params.hostMode) ops states) :
    WeaklyFair (awaitedEnabled (awaited s)) (awaited s) ops states := by
  cases hr : targetReached s with
  | true => rwa [awaited_of_reached hr, awaitedEnabled_poll]
  | false =>
    rcases awaited_of_not_reached hr with ⟨ch, -, -, e⟩ | ⟨-, e⟩ <;> rw [e]
    · cases ch with
      | a => exact heva
      | b => exact hevb
    · exact htick

/-- Under fairness to what a running move waits for, its end comes nearer. -/
theorem IsExecution.comes_nearer (hexec : IsExecution ops states) (hreset : ∀ n, ops n ≠ .sysReset) {n : Nat}
    (hfair : WeaklyFair (awaitedEnabled (awaited (states n))) (awaited (states n)) ops states)
    (hinv : Invariants (states n)) (hm : (states n).fsm.mc = .run) :
    ∃ k, n < k ∧ Invariants (states k) ∧ Nearer (states n) (states k) := by
  have hkept (k : Nat) (h : Invariants (states k)) : Invariants (states (k + 1)) :=
    (exec_next_effect (hexec k)).keeps_invariants h
  refine hfair.leads_to (C := fun s => Invariants s ∧ Waiting (states n) s)
    (G := fun s => Invariants s ∧ Nearer (states n) s) ?_ ?_ ?_ ⟨hinv, hm, rfl, rfl⟩
  · rintro s ⟨-, hrun, -, ha⟩
    exact ha ▸ awaitedEnabled_awaited hrun
  · rintro k ⟨hk, hwait⟩
    rcases ((exec_next_effect (hexec k)).moveEffect hk hwait.1 (hreset k)).nearer_or_waiting hk hwait.1 with h | h
    · exact .inl ⟨hkept k hk, hwait.nearer h⟩
    · exact .inr ⟨hkept k hk, hwait.trans h⟩
  · rintro k ⟨hk, hwait⟩ hop
    have ⟨hrun, _, ha⟩ := hwait
    exact ⟨hkept k hk, hwait.nearer (nearer_of_awaited hk hrun (by rw [ha, ← hop]; exact hexec k))⟩

/-- By induction on the distance of its end, a running move ends. -/
theorem IsExecution.move_ends (hexec : IsExecution ops states) (hreset : ∀ n, ops n ≠ .sysReset)
    (hfair : ∀ n, WeaklyFair (awaitedEnabled (awaited (states n))) (awaited (states n)) ops states) (n : Nat)
    (hinv : Invariants (states n)) (hm : (states n).fsm.mc = .run) : ∃ m, n < m ∧ (states m).fsm.mc = .done := by
  induction hd : distance (states n) using Nat.strong_induction_on generalizing n with
  | _ d ih =>
    obtain ⟨k, hk, hinv', hdone | ⟨hrun, hlt⟩⟩ := hexec.comes_nearer hreset (hfair n) hinv hm
    · exact ⟨k, hk, hdone⟩
    · obtain ⟨m, hkm, hdone⟩ := ih _ (hd ▸ hlt) k hinv' hrun rfl
      exact ⟨m, hk.trans hkm, hdone⟩

end

/-! ## The lines after two opposite moves (R99, R100) -/

theorem afterToggles_add (level : Bool) (n m : Nat) :
    afterToggles (afterToggles level n) m = afterToggles level (n + m) := by
  induction m with
  | zero => simp [afterToggles]
  | succ m ih => rw [afterToggles_succ, ih, ← Nat.add_assoc, afterToggles_succ]

theorem afterToggles_eq_self_iff (level : Bool) (n : Nat) : afterToggles level n = level ↔ n % 2 = 0 := by
  rcases Nat.mod_two_eq_zero_or_one n with h | h <;> simp [afterToggles, h]

/-- The opposite assignment gives a line the events of the other channel. -/
theorem lineToggles_flip (P n : Nat) (d : Dir) (l : Line) :
    lineToggles P n d.flip l = channelEvents P n (if lineOf .a d = l then .b else .a) := by
  cases d <;> cases l <;> rfl

/-- Of n events and then m with the channels exchanged, each line gets an even number exactly when n + m is a multiple
of 4. -/
theorem exchanged_events_even_iff (P n m : Nat) :
    (channelEvents P n .a + channelEvents P m .b) % 2 = 0 ∧ (channelEvents P n .b + channelEvents P m .a) % 2 = 0 ↔
      (n + m) % 4 = 0 := by
  simp only [channelEvents]
  split <;> omega

theorem opposite_toggles_even_iff (P n m : Nat) (d : Dir) :
    (lineToggles P n d .coil0 + lineToggles P m d.flip .coil0) % 2 = 0 ∧
      (lineToggles P n d .coil1 + lineToggles P m d.flip .coil1) % 2 = 0 ↔ (n + m) % 4 = 0 := by
  rw [lineToggles_flip, lineToggles_flip, ← exchanged_events_even_iff P]
  cases d with
  | forward => rfl
  | reverse => exact and_comm

/-! ## The obligations -/

/-- Settles O51: each line is inverted as often as the two moves together have events on it. -/
theorem oppositeMovesRestoreLinesIffSumIsMultipleOfFour :
    Obligations.OppositeMovesRestoreLinesIffSumIsMultipleOfFour := by
  intro s₀ s₁ s₂ s₃ a b c d hinv harmed hrun hinv' harmed' hrun' hP hmap h0 h1
  obtain ⟨hn, -, -, hlines⟩ := channelsAlternateInEveryMove s₀ s₁ a b hinv harmed hrun
  obtain ⟨hm, -, -, hlines'⟩ := channelsAlternateInEveryMove s₂ s₃ c d hinv' harmed' hrun'
  have hboth (l : Line) (hl : s₂.port.line l = s₁.port.line l) : s₃.port.line l = s₀.port.line l ↔
      (lineToggles s₀.ocra.toNat (a + b) s₀.map l + lineToggles s₀.ocra.toNat (c + d) s₀.map.flip l) % 2 = 0 := by
    rw [hlines', hl, hlines, hP, hmap, afterToggles_add, afterToggles_eq_self_iff]
  rw [hn, hm, ← opposite_toggles_even_iff s₀.ocra.toNat _ _ s₀.map]
  exact and_congr (hboth .coil0 h0) (hboth .coil1 h1)

/-- Settles O53: short of the target every tick is taken, so T(target) of them reach it, and the poll ends the move. -/
theorem eagerMoveEndsAfterTheTargetTick : Obligations.EagerMoveEndsAfterTheTargetTick := by
  intro s hinv harmed P t
  have hm : s.fsm.mc = .run := harmed.1
  have h : AfterTicks s (eventTick P s.target.toNat) t :=
    (AfterTicks.zero hinv harmed).tick_final_to_target hm _ (Nat.zero_add _).symm
  have hr : targetReached t = true := (h.targetReached_iff hm).2 le_rfl
  have hpoll := exec_pollingOperation_running h.invariants (h.running hm)
  rw [pollMove_of_reached hr, show t.params = s.params by rw [h.frame]] at hpoll
  exact ⟨h.running hm, h.target ▸ (targetReached_iff t).1 hr, fun hP => h.target ▸ h.stepcnt_eq_target hm hP,
    _, hpoll, rfl⟩

/-- Settles O54: the awaited operation comes, and with each the end of the move nearer. -/
theorem fairScheduleEndsEveryMove : Obligations.FairScheduleEndsEveryMove := by
  intro ops states hexec hreset htick heva hevb hpoll
  refine hexec.move_ends hreset fun n => weaklyFair_awaited htick heva hevb ?_
  rwa [hexec.params n]

/-- Settles O36: the poll and the reset are all that leaves MC_RUN, and CSM.EDGE samples the pin. -/
theorem noOperationCancelsAMove : Obligations.NoOperationCancelsAMove := by
  refine ⟨fun i s t hs h ht => ?_, fun l s _ => ?_⟩
  · exact ((exec_next_effect h).leaves_run hs ht).imp_right fun ⟨hi, hr, e⟩ =>
      ⟨hi, (targetReached_iff s).1 hr, by rw [e]; rfl⟩
  · by_cases hl : l = s.pin
    · exact ⟨s, exec_csmEdge_same hl, rfl⟩
    · exact ⟨_, exec_csmEdge_edge hl, rfl⟩

/-- Settles O46: the bound of each arithmetic, TARGET_MAX being 255 or 254. -/
theorem anglesThatMoveAndAreInRange : Obligations.AnglesThatMoveAndAreInRange := by
  intro a
  simp only [stepsOfAngle, stepsPerRev, Params.targetMax]
  exact ⟨by omega, by omega, fun p => ⟨by omega, by omega, by omega⟩⟩

/-- Settles O47: what ends the move is the poll, which reads TARGET ≤ STEPCNT; the other bound is an invariant. -/
theorem moveEndsWithinOvershootOfTarget : Obligations.MoveEndsWithinOvershootOfTarget := by
  intro i s t hinv hs h ht
  rcases (exec_next_effect h).leaves_run hs (by simp [ht]) with rfl | ⟨-, hr, rfl⟩
  · rw [exec_sysReset] at h
    cases h
    cases ht
  · obtain ⟨-, -, hle, -⟩ := hinv.bounded hs
    exact ⟨rfl, (targetReached_iff s).1 hr, hle⟩

/-- Settles O14: a performed start begins the move under the arithmetic of the parameters; else R120's table refuses it. -/
theorem mcStartBeginsTheMove : Obligations.McStartBeginsTheMove := by
  refine fun d angle s => ⟨fun hd hc hm => ⟨_, exec_mcStart_performed hd hc hm d angle, ?_, ?_⟩, fun h => ?_⟩
  · exact fun harith =>
      show MoveBegun s d (stepsOfAngle .divFirst angle) _ from harith ▸ moveBegun_beginMove d angle s
  · exact fun harith =>
      show MoveBegun s d (stepsOfAngle .mulFirst angle) _ from harith ▸ moveBegun_beginMove d angle s
  · exact congrArg _ (requireMode_direct_refused (h.imp_right fun h => mcStart_refused h d angle))

/-- Settles O15: a performed poll does what R95 says; else R120's table refuses it. -/
theorem mcPollEndsTheMoveAtTarget : Obligations.McPollEndsTheMoveAtTarget := by
  refine fun s => ⟨fun hd hm => ⟨_, exec_mcPoll_running hd hm, movePolled_pollMove s⟩, fun h => ?_⟩
  exact congrArg _ (requireMode_direct_refused (h.imp_right mcPoll_refused))

/-- Settles O16: a performed acknowledgement; else R120's table refuses it. -/
theorem mcAckTakesTheReturn : Obligations.McAckTakesTheReturn := by
  refine fun s => ⟨exec_mcAck_performed, fun h => ?_⟩
  exact congrArg _ (requireMode_direct_refused (h.imp_right mcAck_refused))

end Sys2Proof.Machine
end

section
/-! PROOFS. Family 44_main_control_loop.md: the arms of MCL.STEP (R105 to R108), what changes the sequencer's state and
the status line (R103, R109), and the cycle whose moves have no step (R112). -/

namespace Sys2Proof.Machine

section
variable {s t : State} {i : Instr}

/-! ## The arms of MCL.STEP (R104) -/

section
variable (hq : s.params.hostMode = .sequencer) (hc : s.cfg = true)
include hq hc

theorem exec_mclStep_performed : exec .mclStep s = .next (mclArm s) := by
  rw [exec_mclStep, requireMode_self hq, require_true hc]

theorem exec_mclStep_idle (hl : s.fsm.mcl = .idle) : exec .mclStep s = .next (mclIdle s) := by
  simp [exec_mclStep_performed hq hc, mclArm, hl]

theorem exec_mclStep_opening (hl : s.fsm.mcl = .opening) :
    exec .mclStep s = .next (mclMove s.params.openDir (setMcl .holding) s) := by
  simp [exec_mclStep_performed hq hc, mclArm, hl, mclOpening]

theorem exec_mclStep_holding (hl : s.fsm.mcl = .holding) : exec .mclStep s = .next (mclHolding s) := by
  simp [exec_mclStep_performed hq hc, mclArm, hl]

theorem exec_mclStep_closing (hl : s.fsm.mcl = .closing) :
    exec .mclStep s = .next (mclMove s.params.openDir.flip (fun u => setStatus false (setMcl .idle u)) s) := by
  simp [exec_mclStep_performed hq hc, mclArm, hl, mclClosing]

end

theorem mclIdle_of_crank (hk : s.csr = true) : mclIdle s = setStatus true (setMcl .opening s) := if_pos hk

theorem mclIdle_of_no_crank (hk : s.csr = false) : mclIdle s = s := if_neg (by simp [hk])

theorem mclHolding_of_crank (hk : s.csr = true) : mclHolding s = s := if_pos hk

theorem mclHolding_of_no_crank (hk : s.csr = false) : mclHolding s = setMcl .closing s := if_neg (by simp [hk])

section
variable (d : Dir) (onReturn : State → State)

theorem mclMove_starts (hc : s.cfg = true) (hm : s.fsm.mc = .idle) :
    mclMove d onReturn s = beginMove d s.params.moveAngle.val s := by
  simp [mclMove, hm, mcStart_performed hc hm]

theorem mclMove_polls (hm : s.fsm.mc = .run) : mclMove d onReturn s = pollMove s := by
  simp [mclMove, hm, mcPoll_performed hm]

theorem mclMove_returns (hm : s.fsm.mc = .done) : mclMove d onReturn s = onReturn (setMc .idle s) := by
  simp [mclMove, hm, mcAck_performed hm]

/-- A commanded move, by where its call stands: R106 and R108 are this with their direction and their return. -/
theorem mclMove_meaning (hc : s.cfg = true) :
    (s.fsm.mc = .idle → MoveBegun s d (stepsOfAngle s.params.angleArith s.params.moveAngle.val) (mclMove d onReturn s)) ∧
    (s.fsm.mc = .run → MovePolled s (mclMove d onReturn s)) ∧
    (s.fsm.mc = .done → mclMove d onReturn s = onReturn (setMc .idle s)) := by
  refine ⟨fun hm => ?_, fun hm => ?_, mclMove_returns d onReturn⟩
  · rw [mclMove_starts d onReturn hc hm]
    exact moveBegun_beginMove d s.params.moveAngle.val s
  · rw [mclMove_polls d onReturn hm]
    exact movePolled_pollMove s

end

end

/-! ## The obligations arm by arm -/

/-- Settles O17, the arm of Idle. -/
theorem mclIdlePollsCrank : Obligations.MclIdlePollsCrank := by
  intro s hq hc hl
  rw [exec_mclStep_idle hq hc hl]
  exact ⟨fun hk => congrArg _ (mclIdle_of_crank hk), fun hk => congrArg _ (mclIdle_of_no_crank hk)⟩

/-- Settles O18: the arm of Opening is a commanded move with OPEN_DIR. -/
theorem mclOpeningRunsTheOpenMove : Obligations.MclOpeningRunsTheOpenMove := by
  intro s hq hc hl
  rw [exec_mclStep_opening hq hc hl]
  obtain ⟨hstart, hpoll, hreturn⟩ := mclMove_meaning s.params.openDir (setMcl .holding) hc
  exact ⟨fun hm => ⟨_, rfl, hstart hm⟩, fun hm => ⟨_, rfl, hpoll hm⟩, fun hm => congrArg _ (hreturn hm)⟩

/-- Settles O19, the arm of Holding. -/
theorem mclHoldingPollsCrank : Obligations.MclHoldingPollsCrank := by
  intro s hq hc hl
  rw [exec_mclStep_holding hq hc hl]
  exact ⟨fun hk => congrArg _ (mclHolding_of_no_crank hk), fun hk => congrArg _ (mclHolding_of_crank hk)⟩

/-- Settles O20: the arm of Closing is a commanded move with the reversed assignment. -/
theorem mclClosingRunsTheReversedMove : Obligations.MclClosingRunsTheReversedMove := by
  intro s hq hc hl
  rw [exec_mclStep_closing hq hc hl]
  obtain ⟨hstart, hpoll, hreturn⟩ :=
    mclMove_meaning s.params.openDir.flip (fun u => setStatus false (setMcl .idle u)) hc
  exact ⟨fun hm => ⟨_, rfl, hstart hm⟩, fun hm => ⟨_, rfl, hpoll hm⟩, fun hm => congrArg _ (hreturn hm)⟩

section
variable {s t : State} {i : Instr}

/-! ## Who changes the sequencer's state and the status line (R103, R109) -/

/-- The four transitions of R103, each on its condition. -/
inductive Transition (s : State) : State → Prop where
  | toOpening (hs : s.fsm.mcl = .idle) (hk : s.csr = true) : Transition s (setStatus true (setMcl .opening s))
  | toHolding (hs : s.fsm.mcl = .opening) (hm : s.fsm.mc = .done) : Transition s (setMcl .holding (setMc .idle s))
  | toClosing (hs : s.fsm.mcl = .holding) (hk : s.csr = false) : Transition s (setMcl .closing s)
  | toIdle (hs : s.fsm.mcl = .closing) (hm : s.fsm.mc = .done) :
      Transition s (setStatus false (setMcl .idle (setMc .idle s)))

/-- What an operation can do to the sequencer: leave its state and the status line, make a transition, or reset. -/
theorem Effect.mcl_and_status (e : Effect s i t) :
    (t.fsm.mcl = s.fsm.mcl ∧ t.port.status = s.port.status) ∨ (i = .mclStep ∧ Transition s t) ∨
      (i = .sysReset ∧ t = resetRegisters s) := by
  cases e with
  | servicedA => exact .inl ⟨rfl, toggle_status ..⟩
  | servicedB => exact .inl ⟨rfl, toggle_status ..⟩
  | began _ d angle =>
    rw [beginMove_frame]
    exact .inl ⟨rfl, rfl⟩
  | toOpening _ _ hs hk => exact .inr (.inl ⟨rfl, .toOpening hs hk⟩)
  | toHolding _ _ hs hm => exact .inr (.inl ⟨rfl, .toHolding hs hm⟩)
  | toClosing _ _ hs hk => exact .inr (.inl ⟨rfl, .toClosing hs hk⟩)
  | toIdle _ _ hs hm => exact .inr (.inl ⟨rfl, .toIdle hs hm⟩)
  | reset => exact .inr (.inr ⟨rfl, rfl⟩)
  | _ => exact .inl ⟨rfl, rfl⟩

/-- A transition leaves the status line showing the state it goes to. -/
theorem Transition.status (h : Transition s t) (hst : s.port.status = true ↔ s.fsm.mcl ≠ .idle) :
    t.port.status = true ↔ t.fsm.mcl ≠ .idle := by
  cases h with
  | toOpening => simp
  | toHolding hs => simp [hst, hs]
  | toClosing hs => simp [hst, hs]
  | toIdle => simp

/-! ## Moves without a step (R112) -/

theorem beginMove_of_no_step {angle : Nat} (hz : stepsOfAngle s.params.angleArith angle = 0) (d : Dir) :
    beginMove d angle s = setMc .done (setTarget 0 (clearSteps (ctdInstall d s))) := by
  rcases beginMove_cases d angle s with ⟨hout, -⟩ | ⟨-, e⟩ | ⟨h1, -, -⟩
  · omega
  · exact e
  · omega

theorem perform_cons_of_next (h : exec i s = .next t) (rest : List Instr) : perform (i :: rest) s = perform rest t := by
  simp [perform, h]

/-- Half a cycle without a step: the transition to t, then the start and the return of the move commanded there. The arm
is given for every state of t's sequencer state, since start and return are performed in different ones. -/
theorem perform_halfCycle_of_no_step {d : Dir} {onReturn : State → State} (henter : exec .mclStep s = .next t)
    (harm : ∀ u : State, u.params = t.params → u.cfg = t.cfg → u.fsm.mcl = t.fsm.mcl →
      exec .mclStep u = .next (mclMove d onReturn u))
    (hc : t.cfg = true) (hm : t.fsm.mc = .idle)
    (hz : stepsOfAngle t.params.angleArith t.params.moveAngle.val = 0) (rest : List Instr) :
    perform (.mclStep :: .mclStep :: .mclStep :: rest) s = perform rest (onReturn { t with
      map := d, stepcnt := 0#8, target := 0#8, fsm := ⟨t.fsm.mcl, .idle⟩ }) := by
  have hstart := harm t rfl rfl rfl
  rw [mclMove_starts d onReturn hc hm, beginMove_of_no_step hz d] at hstart
  have hreturn := harm (setMc .done (setTarget 0 (clearSteps (ctdInstall d t)))) rfl rfl rfl
  rw [mclMove_returns d onReturn rfl] at hreturn
  rw [perform_cons_of_next henter, perform_cons_of_next hstart, perform_cons_of_next hreturn]
  rfl

section
variable (hq : s.params.hostMode = .sequencer) (hc : s.cfg = true) (hm : s.fsm.mc = .idle)
  (hz : stepsOfAngle s.params.angleArith s.params.moveAngle.val = 0)
include hq hc hm hz

/-- Idle with CRANK = 1, to Opening, and through it to Holding. -/
theorem perform_opening_of_no_step (hl : s.fsm.mcl = .idle) (hk : s.csr = true) (rest : List Instr) :
    perform (.mclStep :: .mclStep :: .mclStep :: rest) s = perform rest { s with
      map := s.params.openDir, stepcnt := 0#8, target := 0#8, fsm := ⟨.holding, .idle⟩,
      port := { s.port with status := true } } := by
  obtain ⟨hopen, -⟩ := mclIdlePollsCrank s hq hc hl
  have harm : ∀ u : State, u.params = s.params → u.cfg = s.cfg → u.fsm.mcl = .opening →
      exec .mclStep u = .next (mclMove s.params.openDir (setMcl .holding) u) :=
    fun u hp hcfg hmcl => hp ▸ exec_mclStep_opening (hp ▸ hq) (hcfg.trans hc) hmcl
  rw [perform_halfCycle_of_no_step (hopen hk) harm hc hm hz]
  rfl

/-- Holding with CRANK = 0, to Closing, and through it to Idle. -/
theorem perform_closing_of_no_step (hl : s.fsm.mcl = .holding) (hk : s.csr = false) (rest : List Instr) :
    perform (.mclStep :: .mclStep :: .mclStep :: rest) s = perform rest { s with
      map := s.params.openDir.flip, stepcnt := 0#8, target := 0#8, fsm := ⟨.idle, .idle⟩,
      port := { s.port with status := false } } := by
  obtain ⟨hclose, -⟩ := mclHoldingPollsCrank s hq hc hl
  have harm : ∀ u : State, u.params = s.params → u.cfg = s.cfg → u.fsm.mcl = .closing →
      exec .mclStep u = .next (mclMove s.params.openDir.flip (fun v => setStatus false (setMcl .idle v)) u) :=
    fun u hp hcfg hmcl => hp ▸ exec_mclStep_closing (hp ▸ hq) (hcfg.trans hc) hmcl
  rw [perform_halfCycle_of_no_step (hclose hk) harm hc hm hz]
  rfl

end

end

/-! ## The obligations on runs of the sequencer -/

/-- Settles O43: only a transition changes FSM.MCL, reset apart. -/
theorem sequencerFollowsItsFourStates : Obligations.SequencerFollowsItsFourStates := by
  intro i s t h hne hreset
  rcases (exec_next_effect h).mcl_and_status with ⟨hsame, -⟩ | ⟨hi, htrans⟩ | ⟨hi, -⟩
  · exact absurd hsame hne
  · refine ⟨hi, ?_⟩
    cases htrans with
    | toOpening hs hk => exact .inl ⟨hs, rfl, hk⟩
    | toHolding hs hm => exact .inr (.inl ⟨hs, rfl, hm⟩)
    | toClosing hs hk => exact .inr (.inr (.inl ⟨hs, rfl, hk⟩))
    | toIdle hs hm => exact .inr (.inr (.inr ⟨hs, rfl, hm⟩))
  · exact absurd hi hreset

/-- Settles O44: an operation leaves both sides as they are, makes a transition, or resets both. -/
theorem statusMirrorsTheCycle : Obligations.StatusMirrorsTheCycle := by
  intro i s t hst h
  rcases (exec_next_effect h).mcl_and_status with ⟨hmcl, hstatus⟩ | ⟨-, htrans⟩ | ⟨-, rfl⟩
  · rw [hmcl, hstatus]
    exact hst
  · exact htrans.status hst
  · simp

/-- Settles O57: the two halves of the cycle with the edge between them. The invariants give the call and the status line
of Idle, which the cycle leaves as it found them. -/
theorem zeroStepCycleTogglesNothing : Obligations.ZeroStepCycleTogglesNothing := by
  intro s hinv hq hc hl hpin hk hz
  have hm : s.fsm.mc = .idle := hinv.call_idle hq (.inl hl)
  have hfsm : (⟨.idle, .idle⟩ : Fsm) = s.fsm := by rw [← hl, ← hm]
  have hstatus : s.port.status = false := Bool.eq_false_of_not_eq_true fun hs => (hinv.status_on hq).1 hs hl
  have hport : { s.port with status := false } = s.port := by rw [← hstatus]
  rw [perform_opening_of_no_step hq hc hm hz hl hk,
    perform_cons_of_next (exec_csmEdge_edge (by simp [hpin])),
    perform_closing_of_no_step (by exact hq) (by exact hc) rfl (by exact hz) rfl rfl, ← hport, ← hfsm]
  rfl

end Sys2Proof.Machine
end

section
/-! PROOFS. Family 45_system.md: reset (R113, R114), power-on (R115) and the register map RegRead shows (R116). -/

namespace Sys2Proof.Machine

/-! ## The bytes of the registers (R15, R36) -/

/-- Two flags at the low bits of a byte, as in TIE and TIF. -/
theorem twoFlags_toNat (b₁ b₀ : Bool) :
    (0#6 ++ bitOfBool b₁ ++ bitOfBool b₀ : Byte).toNat = b₀.toNat + 2 * b₁.toNat := by
  cases b₁ <;> cases b₀ <;> rfl

/-- Three flags at the low bits of a byte, as in PORT and ERR. -/
theorem threeFlags_toNat (b₂ b₁ b₀ : Bool) :
    (0#5 ++ bitOfBool b₂ ++ bitOfBool b₁ ++ bitOfBool b₀ : Byte).toNat = b₀.toNat + 2 * b₁.toNat + 4 * b₂.toNat := by
  cases b₂ <;> cases b₁ <;> cases b₀ <;> rfl

theorem boolByte_toNat (b : Bool) : (boolByte b).toNat = b.toNat := by cases b <;> rfl

theorem mapByte_toNat (d : Dir) : (mapByte d).toNat = if d = .reverse then 1 else 0 := by cases d <;> rfl

theorem pinByte_eq (l : Level) : pinByte l = if l = .high then 0x01#8 else 0x00#8 := by cases l <;> rfl

theorem pinByte_toNat (l : Level) : (pinByte l).toNat = if l = .high then 1 else 0 := by cases l <;> rfl

theorem Fsm.byte_toNat (r : Fsm) : r.byte.toNat = r.mcl.code.toNat + 4 * r.mc.code.toNat := by
  obtain ⟨mcl, mc⟩ := r
  cases mcl <;> cases mc <;> rfl

/-! ## Register numbers (R116) -/

/-- The fourteen registers are all there are. -/
theorem regRead_beyond (s : State) {n : Byte} (h : 0x0E ≤ n.toNat) : regRead s n = 0x00#8 := by
  unfold regRead
  split
  case h_15 => rfl
  all_goals omega

/-- Every reset value of R33 but the pin's is the byte 0. -/
theorem regRead_powerOn_of_ne_pin (p : Params) {n : Byte} (h : n ≠ 0x09#8) :
    regRead (State.powerOn p) n = 0x00#8 := by
  simp only [regRead, State.powerOn]
  split
  case h_10 hn => exact absurd (BitVec.eq_of_toNat_eq hn) h
  all_goals rfl

theorem regRead_powerOn_pin (p : Params) :
    regRead (State.powerOn p) 0x09#8 = if p.crankPinReset = .high then 0x01#8 else 0x00#8 :=
  pinByte_eq p.crankPinReset

/-! ## The obligations on reset and observation -/

/-- Settles O21: the reset is the power-on state with the pin and the schedule kept. -/
theorem sysResetClearsAllButPin : Obligations.SysResetClearsAllButPin := by
  intro s
  rw [exec_sysReset, resetRegisters_eq_powerOn]
  rfl

/-- Settles O25: each register's byte in turn, then the numbers beyond. -/
theorem regReadIsTheRegisterMap : Obligations.RegReadIsTheRegisterMap := by
  intro s
  have hfsm : s.fsm.mcl.code.toNat + 4 * s.fsm.mc.code.toNat =
      (match s.fsm.mcl with | .idle => 0 | .opening => 1 | .holding => 2 | .closing => 3) +
      4 * (match s.fsm.mc with | .idle => 0 | .run => 1 | .done => 2) := by
    cases s.fsm.mcl <;> cases s.fsm.mc <;> rfl
  exact ⟨rfl, rfl, rfl, twoFlags_toNat .., twoFlags_toNat .., rfl, rfl, mapByte_toNat _, threeFlags_toNat ..,
    pinByte_toNat _, boolByte_toNat _, s.fsm.byte_toNat.trans hfsm, threeFlags_toNat .., boolByte_toNat _,
    fun _ => regRead_beyond s⟩

/-- Settles O27: the pin is the one register that power-on need not leave at 0. -/
theorem powerOnRegisters : Obligations.PowerOnRegisters := by
  intro p n
  by_cases hn : n = 0x09#8
  · subst hn
    simpa using regRead_powerOn_pin p
  · simpa [hn] using regRead_powerOn_of_ne_pin p hn

end Sys2Proof.Machine
end

section
/-! PROOFS. Family 60_exceptions.md: what an operation and a step do to ERR (R118 to R123), what each agent's operations
leave alone (R132), and the order of a pin change and a compare handler (R127). -/

namespace Sys2Proof.Machine

section
variable {s t u : State} {i : Instr} {l : Level}

/-! ## The bits of ERR (R28) -/

theorem Err.bit_set_of_bit {e : Err} {b : ErrBit} (h : e.bit b = true) (c : ErrBit) : (e.set c).bit b = true := by
  by_cases hbc : b = c
  · rw [hbc, set_bit_self]
  · rw [set_bit_other e hbc, h]

/-- Raising an error sets no bit but its own. -/
theorem Err.eq_of_bit_set {e : Err} {b c : ErrBit} (h0 : e.bit b = false) (h1 : (e.set c).bit b = true) : b = c := by
  by_contra hbc
  simp [set_bit_other e hbc, h0] at h1

@[simp] theorem Err.bit_cleared (b : ErrBit) : (⟨false, false, false⟩ : Err).bit b = false := by cases b <;> rfl

/-! ## What becomes of ERR (R118 to R123) -/

/-- The only error of beginning a move is ERR.RANGE (R119). -/
theorem beginMove_err (d : Dir) (angle : Nat) (s : State) :
    (beginMove d angle s).err = s.err ∨ (beginMove d angle s).err = s.err.set .range := by
  rcases beginMove_cases d angle s with ⟨-, e⟩ | ⟨-, e⟩ | ⟨-, -, e⟩ <;> simp [e]

/-- ERR after an operation: as it was, with one more error of the foreground's, or cleared by SYS.RESET. -/
theorem Effect.err (e : Effect s i t) :
    t.err = s.err ∨ (i.agent = .fg ∧ ∃ b, t.err = s.err.set b) ∨
      (i = .sysReset ∧ t.err = ⟨false, false, false⟩) := by
  cases e with
  | refused _ hfg => exact .inr (.inl ⟨hfg, .proto, rfl⟩)
  | began _ d angle hi =>
    have hfg : i.agent = .fg := by rcases hi with ⟨rfl, -⟩ | ⟨rfl, -⟩ <;> rfl
    exact (beginMove_err d angle s).imp_right fun e => .inl ⟨hfg, .range, e⟩
  | reset => exact .inr (.inr ⟨rfl, rfl⟩)
  | _ => exact .inl rfl

/-- ERR after a step: as it was, with one more error, or cleared by the word of SYS.RESET. -/
theorem step_err (h : step s = .next t) :
    t.err = s.err ∨ (∃ b, t.err = s.err.set b) ∨
      (s.stream.head? = some 0xF0000000#32 ∧ t.err = ⟨false, false, false⟩) := by
  obtain ⟨w, rest, hs, ⟨i, hd, hi⟩ | ⟨why, -, rfl⟩⟩ := step_next_cases h
  · rcases (exec_next_effect hi).err with e | ⟨-, e⟩ | ⟨rfl, e⟩
    · exact .inl e
    · exact .inr (.inl e)
    · have hw : encode .sysReset = w := (decode_eq_ok_iff.1 hd).2
      exact .inr (.inr ⟨by rw [hs, ← hw]; rfl, e⟩)
  · exact .inr (.inl ⟨.ill, rfl⟩)

/-! ## ERR.PROTO (R120) -/

/-- A word that R120's table refuses raises ERR.PROTO. -/
theorem exec_of_protoRefused (h : protoRefused s i) : exec i s = .next (raiseErr .proto s) := by
  cases i with
  | tpgConfig p => exact (exec_tpgConfig p s).trans (congrArg _ (if_pos h))
  | mcStart d angle =>
    rw [exec_mcStart, requireMode_direct_refused (h.imp_right fun hl => mcStart_refused hl d angle)]
  | mcPoll => rw [exec_mcPoll, requireMode_direct_refused (h.imp_right mcPoll_refused)]
  | mcAck => rw [exec_mcAck, requireMode_direct_refused (h.imp_right mcAck_refused)]
  | mclStep =>
    rw [exec_mclStep]
    by_cases hq : s.params.hostMode = .sequencer
    · have hc : s.cfg = false := h.resolve_left (by simp [hq])
      rw [requireMode_self hq, require_false hc]
    · rw [requireMode_other hq]
  | tpgTick => exact h.elim
  | ctdEva => exact h.elim
  | ctdEvb => exact h.elim
  | csmEdge l => exact h.elim
  | sysReset => exact h.elim

theorem beginMove_proto (d : Dir) (angle : Nat) (s : State) : (beginMove d angle s).err.proto = s.err.proto := by
  rcases beginMove_err d angle s with e | e <;> rw [e]
  rfl

theorem pollMove_err (s : State) : (pollMove s).err = s.err := by
  rcases pollMove_cases s with ⟨-, e⟩ | ⟨-, e⟩ <;> simp [e]

/-- The sequencer makes no call that the motion controller refuses (R104). -/
theorem mclMove_proto (hc : s.cfg = true) (d : Dir) {onReturn : State → State}
    (hr : (onReturn (setMc .idle s)).err = s.err) : (mclMove d onReturn s).err.proto = s.err.proto := by
  rcases mclMove_cases d onReturn s hc with ⟨-, e⟩ | ⟨-, e⟩ | ⟨-, e⟩ <;> rw [e]
  · exact beginMove_proto ..
  · rw [pollMove_err]
  · rw [hr]

theorem mclArm_proto (hc : s.cfg = true) : (mclArm s).err.proto = s.err.proto := by
  cases hl : s.fsm.mcl with
  | idle => cases hk : s.csr <;> simp [mclArm, hl, mclIdle, hk]
  | opening => simpa [mclArm, hl, mclOpening] using mclMove_proto hc s.params.openDir rfl
  | holding => cases hk : s.csr <;> simp [mclArm, hl, mclHolding, hk]
  | closing => simpa [mclArm, hl, mclClosing] using mclMove_proto hc s.params.openDir.flip rfl

/-! ## What each agent leaves alone (R132) -/

theorem Port.toggle_frame (p : Port) (l : Line) :
    p.toggle l = { p with coil0 := (p.toggle l).coil0, coil1 := (p.toggle l).coil1 } := by
  cases l <;> rfl

theorem serviceEvent_frame (ch : Channel) (s : State) :
    let t := serviceEvent ch s
    t = { s with port := { s.port with coil0 := t.port.coil0, coil1 := t.port.coil1 },
                 stepcnt := t.stepcnt, tif := t.tif } := by
  simp [serviceEvent, ← Port.toggle_frame]

/-- A foreground operation toggles no line and samples no pin. -/
theorem Effect.fg_frame (e : Effect s i t) (h : i.agent = .fg) :
    t.port.coil0 = s.port.coil0 ∧ t.port.coil1 = s.port.coil1 ∧ t.pin = s.pin ∧ t.csr = s.csr := by
  cases e with
  | servicedA => cases h
  | servicedB => cases h
  | edge => cases h
  | reset => cases h
  | began _ d angle =>
    rw [beginMove_frame]
    exact ⟨rfl, rfl, rfl, rfl⟩
  | _ => exact ⟨rfl, rfl, rfl, rfl⟩

/-! ## A pin change before or after another operation (R126, R127) -/

/-- CRANK after CSM.EDGE l with the pin at a level, as a function of CRANK before it (R84, R85). -/
def resample (l pin : Level) (crank : Bool) : Bool := if l = pin then crank else crankOfLevel l

/-- CSM.EDGE changes the pin and CRANK alone. -/
theorem exec_csmEdge_resense (l : Level) (s : State) :
    exec (.csmEdge l) s = .next (resense l (resample l s.pin) s) := by
  by_cases hl : l = s.pin
  · subst hl
    simp [exec_csmEdge_same, resense, resample]
  · simp [exec_csmEdge_edge hl, resense, resample, hl, samplePin]

/-- Putting other values into the pin and CRANK may go before an operation that does not depend on them or after it. -/
theorem OutcomeCrankBlind.exec_resense_iff {k : Bool → Bool} (h : OutcomeCrankBlind l k i) :
    exec i (resense l k s) = .next u ↔ ∃ t, exec i s = .next t ∧ resense l k t = u := by
  obtain ⟨hnext, hfault⟩ := h s
  rcases exec_next_or_notEnabled i s with ⟨t, ht⟩ | ⟨f, -, hf⟩
  · simp [ht, hnext t ht]
  · simp [hf, hfault f hf]

/-- A pin change commutes with every operation but those that read or write the pin and CRANK. -/
theorem csmEdge_commutes (hstep : i ≠ .mclStep) (hedge : ∀ l', i ≠ .csmEdge l') (hreset : i ≠ .sysReset) :
    (∃ t, exec i s = .next t ∧ exec (.csmEdge l) t = .next u) ↔
      ∃ t, exec (.csmEdge l) s = .next t ∧ exec i t = .next u := by
  have hpin {t : State} (h : exec i s = .next t) : t.pin = s.pin := by
    rcases (exec_next_effect h).pin_and_csr with ⟨hp, -⟩ | ⟨l', hi, -⟩ | ⟨hi, -⟩
    · exact hp
    · exact absurd hi (hedge l')
    · exact absurd hi hreset
  calc (∃ t, exec i s = .next t ∧ exec (.csmEdge l) t = .next u)
      ↔ ∃ t, exec i s = .next t ∧ resense l (resample l s.pin) t = u :=
        exists_congr fun t => and_congr_right fun h => by rw [exec_csmEdge_resense, hpin h, Host.Outcome.next.injEq]
    _ ↔ exec i (resense l (resample l s.pin) s) = .next u :=
        (outcomeCrankBlind_of_ne hstep hedge hreset).exec_resense_iff.symm
    _ ↔ ∃ t, exec (.csmEdge l) s = .next t ∧ exec i t = .next u := by
        simp [exec_csmEdge_resense]

end

/-! ## The obligations -/

/-- Settles O22. A word that is not refused and yet changes ERR is a start, MCL.STEP or SYS.RESET (`err_writers`), and
none of them sets ERR.PROTO. -/
theorem protoRaisedExactlyByTheTable : Obligations.ProtoRaisedExactlyByTheTable := by
  refine fun i s => ⟨exec_of_protoRefused, fun t hp h hproto => ?_⟩
  by_cases he : t.err = s.err
  · rwa [← he]
  rcases err_writers h he with hr | (⟨d, angle, rfl⟩ | rfl) | rfl
  · exact absurd hr hp
  · simp only [protoRefused, not_or, Bool.not_eq_false, not_not] at hp
    obtain ⟨hmode, hc, hm⟩ := hp
    obtain rfl : beginMove d angle s = t := by
      simpa [exec_mcStart_performed (hostMode_direct_of_ne hmode) hc hm] using h
    rwa [beginMove_proto] at hproto
  · simp only [protoRefused, not_or, Bool.not_eq_false] at hp
    obtain ⟨hmode, hc⟩ := hp
    have hq := not_not.1 (mt hostMode_direct_of_ne hmode)
    obtain rfl : mclArm s = t := by simpa [exec_mclStep_performed hq hc] using h
    rwa [mclArm_proto hc] at hproto
  · obtain rfl : resetRegisters s = t := by simpa [exec_sysReset] using h
    cases hproto

/-- Settles O32: the agent of the operation says which update it made. -/
theorem agentsKeepToTheirState : Obligations.AgentsKeepToTheirState := by
  refine fun i s t h => ⟨fun ha => ?_, fun ha => ?_, fun ha => ?_, (exec_next_effect h).fg_frame⟩
  · cases i with
    | csmEdge l =>
      obtain rfl : resense l (resample l s.pin) s = t := by simpa [exec_csmEdge_resense] using h
      rfl
    | _ => cases ha
  · cases i with
    | tpgTick =>
      obtain ⟨-, rfl⟩ := exec_tpgTick_next.1 h
      rfl
    | _ => cases ha
  · cases i with
    | ctdEva =>
      obtain ⟨-, rfl⟩ := exec_ctdEva_next.1 h
      exact serviceEvent_frame .a s
    | ctdEvb =>
      obtain ⟨-, rfl⟩ := exec_ctdEvb_next.1 h
      exact serviceEvent_frame .b s
    | _ => cases ha

/-- Settles O34, from what a step does to ERR. -/
theorem errorBitsAreSticky : Obligations.ErrorBitsAreSticky := by
  intro s t b h hw hb
  rcases step_err h with e | ⟨c, e⟩ | ⟨hreset, -⟩
  · rwa [e]
  · rw [e]
    exact Err.bit_set_of_bit hb c
  · exact absurd hreset hw

/-- Settles O35: a bit that a step sets is the one bit it raises. -/
theorem atMostOneErrorPerStep : Obligations.AtMostOneErrorPerStep := by
  refine ⟨fun s t b c h hb0 hb1 hc0 hc1 => ?_, fun i s t b ha h hb => ?_⟩
  · rcases step_err h with e | ⟨d, e⟩ | ⟨-, e⟩ <;> rw [e] at hb1 hc1
    · simp [hb0] at hb1
    · exact (Err.eq_of_bit_set hb0 hb1).trans (Err.eq_of_bit_set hc0 hc1).symm
    · simp at hb1
  · rcases (exec_next_effect h).err with e | ⟨hfg, -⟩ | ⟨-, e⟩
    · rwa [← e]
    · exact absurd hfg ha
    · simp [e] at hb

/-- Settles O42: the two handlers neither read nor write the pin and CRANK. -/
theorem pinChangeCommutesWithHandlers : Obligations.PinChangeCommutesWithHandlers := by
  rintro i l s u (rfl | rfl) <;> exact csmEdge_commutes (by simp) (by simp) (by simp)

end Sys2Proof.Machine
end

section
/-! PROOFS. Family 70_reset_and_hazards.md: the machine before its configuration (R140) and the resting states (R158). -/

namespace Sys2Proof.Machine

section
variable {s t : State} {i : Instr}

/-! ## Nothing enabled or pending (R12) -/

theorem countTick_of_quiescent (hq : Quiescent s) : countTick s = { s with tcnt := nextCount s } := by
  obtain ⟨htie, htif⟩ := hq
  rw [countTick, matchPending_of_disabled htie, ← htif]

theorem evaEnabled_of_nothing_pending (h : s.tif = ⟨false, false⟩) : evaEnabled s = false := by
  simp [evaEnabled, h]

theorem evbEnabled_of_nothing_pending (h : s.tif = ⟨false, false⟩) : evbEnabled s = false := by
  simp [evbEnabled, h]

/-- Of the operations of TIMER and IRQ only TPG.TICK has a step in a quiescent state, and it counts and no more. -/
theorem exec_timer_or_irq_of_quiescent (hq : Quiescent s) (ha : i.agent = .timer ∨ i.agent = .irq)
    (h : exec i s = .next t) : i = .tpgTick ∧ t = { s with tcnt := nextCount s } := by
  cases i with
  | tpgTick =>
    obtain ⟨-, rfl⟩ := exec_tpgTick_next.1 h
    exact ⟨rfl, countTick_of_quiescent hq⟩
  | ctdEva =>
    obtain ⟨he, -⟩ := exec_ctdEva_next.1 h
    simp [evaEnabled_of_nothing_pending hq.2] at he
  | ctdEvb =>
    obtain ⟨he, -⟩ := exec_ctdEvb_next.1 h
    simp [evbEnabled_of_nothing_pending hq.2] at he
  | _ => simp [Instr.agent] at ha

/-- With nothing pending only a reset writes the coil lines, and STEPCNT is at most cleared, by the start of a move. -/
theorem Effect.coils_and_stepcnt_of_nothing_pending (e : Effect s i t) (htif : s.tif = ⟨false, false⟩)
    (hreset : i ≠ .sysReset) :
    t.port.coil0 = s.port.coil0 ∧ t.port.coil1 = s.port.coil1 ∧ (t.stepcnt = s.stepcnt ∨ t.stepcnt = 0#8) := by
  cases e with
  | servicedA he => simp [evaEnabled_of_nothing_pending htif] at he
  | servicedB he => simp [evbEnabled_of_nothing_pending htif] at he
  | began _ d angle =>
    rw [beginMove_frame]
    exact ⟨rfl, rfl, .inr rfl⟩
  | reset => exact absurd rfl hreset
  | _ => exact ⟨rfl, rfl, .inl rfl⟩

/-! ## Before the configuration (R140) -/

/-- The period is still 0, and TCNT is within it: every tick is a compare match and clears a count that is 0. -/
theorem Invariants.nextCount_of_unconfigured (h : Invariants s) (hc : s.cfg = false) : nextCount s = s.tcnt := by
  obtain ⟨hocra, -⟩ := h.unconfigured hc
  have htcnt : s.tcnt = 0#8 := BitVec.eq_of_toNat_eq (Nat.le_zero.1 (by simpa [hocra] using h.count))
  rw [nextCount_eq, if_pos (htcnt.trans hocra.symm), htcnt]

/-- Everything an operation can do to a machine not yet configured: TPG.CONFIG configures it, CSM.EDGE puts values into the
pin and CRANK, SYS.RESET resets; TPG.TICK has no effect, and the other words of the foreground are refused (R120). -/
theorem exec_of_unconfigured (h : Invariants s) (hc : s.cfg = false) (hexec : exec i s = .next t) :
    (∃ q, i = .tpgConfig q ∧ t = setPeriod q s) ∨ (∃ l, i = .csmEdge l ∧ ∃ k, t = resense l k s) ∨
      (i = .sysReset ∧ t = resetRegisters s) ∨ t = s ∨ t = raiseErr .proto s := by
  obtain ⟨-, -, hfsm, -, -⟩ := h.unconfigured hc
  have hsame (ha : i.agent = .timer ∨ i.agent = .irq) : t = s := by
    obtain ⟨-, rfl⟩ := exec_timer_or_irq_of_quiescent (h.quiescent (by simp [hfsm])) ha hexec
    rw [h.nextCount_of_unconfigured hc]
  have hrefused (hp : protoRefused s i) : t = raiseErr .proto s := by
    simpa [exec_of_protoRefused hp, eq_comm] using hexec
  cases i with
  | tpgConfig q => exact .inl ⟨q, rfl, by simpa [exec_tpgConfig, hc, eq_comm] using hexec⟩
  | csmEdge l => exact .inr (.inl ⟨l, rfl, _, by simpa [exec_csmEdge_resense, eq_comm] using hexec⟩)
  | sysReset => exact .inr (.inr (.inl ⟨rfl, by simpa [exec_sysReset, eq_comm] using hexec⟩))
  | tpgTick => exact .inr (.inr (.inr (.inl (hsame (.inl rfl)))))
  | ctdEva => exact .inr (.inr (.inr (.inl (hsame (.inr rfl)))))
  | ctdEvb => exact .inr (.inr (.inr (.inl (hsame (.inr rfl)))))
  | mcStart d angle => exact .inr (.inr (.inr (.inr (hrefused (.inr (.inl hc))))))
  | mcPoll => exact .inr (.inr (.inr (.inr (hrefused (.inr (by simp [hfsm]))))))
  | mcAck => exact .inr (.inr (.inr (.inr (hrefused (.inr (by simp [hfsm]))))))
  | mclStep => exact .inr (.inr (.inr (.inr (hrefused (.inr hc)))))

end

/-! ## The obligations -/

/-- Settles O28: what each of the things that can happen before the configuration leaves alone. -/
theorem powerOnIsQuiescentUntilConfigured : Obligations.PowerOnIsQuiescentUntilConfigured := by
  refine ⟨fun _ => ⟨⟨rfl, rfl⟩, rfl⟩, fun i s t h hc hexec => ?_⟩
  obtain ⟨-, -, hfsm, -, hport⟩ := h.unconfigured hc
  have hq : Quiescent s := h.quiescent (by simp [hfsm])
  refine ⟨hq, ?_⟩
  rcases exec_of_unconfigured h hc hexec with ⟨q, rfl, rfl⟩ | ⟨l, rfl, k, rfl⟩ | ⟨rfl, rfl⟩ | rfl | rfl
  · exact ⟨hq, rfl, .inl ⟨q, rfl⟩, .inl ⟨q, rfl⟩⟩
  · exact ⟨hq, rfl, .inr hc, .inr (.inl ⟨l, rfl, rfl⟩)⟩
  · exact ⟨⟨rfl, rfl⟩, hport.symm, .inr rfl, .inr (.inr (.inl rfl))⟩
  · exact ⟨hq, rfl, .inr hc, .inr (.inr (.inr rfl))⟩
  · exact ⟨hq, rfl, .inr hc, .inr (.inr (.inr rfl))⟩

/-- Settles O55. Both clauses rest on the handlers having no step where nothing is pending. -/
theorem restingStateTogglesNothing : Obligations.RestingStateTogglesNothing := by
  rintro i s t ⟨-, hq, -⟩ h
  refine ⟨(exec_next_effect h).coils_and_stepcnt_of_nothing_pending hq.2, fun ha => ?_⟩
  obtain ⟨htick, rfl⟩ := exec_timer_or_irq_of_quiescent hq ha h
  exact ⟨htick, rfl⟩

end Sys2Proof.Machine
end
